-- ==== Sys2Proof/Word.lean ====
section
/-! DEFINITION. The word type, the register width XLEN and the plainest arithmetic on words (rules R10, R13, R21). -/

namespace Sys2Proof

/-- The width XLEN of registers, addresses, the PC and CSRs, a parameter of the machine (R9, R10). -/
inductive XLen where
  | rv32
  | rv64
  deriving DecidableEq, Repr

/-- XLEN as a number of bits. -/
def XLen.bits : XLen → Nat
  | .rv32 => 32
  | .rv64 => 64

/-- A container of an XLEN-bit value (R10). With XLEN = 32 the upper half of every register is 0: the operations
that write registers see to it with `XLen.wrap`, so an RV32 value is its own zero extension. -/
abbrev Word := BitVec 64

/-- One byte of memory or of a bus transaction. -/
abbrev Byte := BitVec 8

/-- The index of a general register x0 to x31 (R30). -/
abbrev Reg := BitVec 5

/-- The 3-bit field of a primed register operand of a compressed instruction (R145). -/
abbrev CReg := BitVec 3

/-- The index of a control and status register (R40). -/
abbrev CsrAddr := BitVec 12

/-- The value modulo 2^XLEN (R13). -/
def XLen.wrap (xl : XLen) (v : Word) : Word := (v.setWidth xl.bits).setWidth 64

/-- `sext_XLEN` of an n-bit value (R13). -/
def XLen.sext (xl : XLen) {n : Nat} (v : BitVec n) : Word := xl.wrap (v.signExtend 64)

/-- `zext_XLEN` of an n-bit value (R13). -/
def XLen.zext (xl : XLen) {n : Nat} (v : BitVec n) : Word := xl.wrap (v.setWidth 64)

/-- The value fits in XLEN bits: an RV32 word has no bit set above bit 31. -/
abbrev XLen.Fits (xl : XLen) (v : Word) : Prop := v.toNat < 2 ^ xl.bits

end Sys2Proof
end

