-- ==== Sys2Proof/Config.lean ====
section
/-! DEFINITION. What an implementation fixes (the parameters of rule R9) and the free value the spec leaves open. -/

namespace Sys2Proof

/-- The pipeline organisation (R3, R9). -/
inductive Pipe where
  | twoStage
  | sixStage
  deriving DecidableEq, Repr

/-- The eight bus targets of the address map, in demultiplexing order (R84). -/
inductive Target where
  | clint
  | plic
  | uart
  | dma
  | trace
  | legacyTimer
  | syscallHook
  | legacyTermination
  deriving DecidableEq, Repr

/-- The implementation parameters of R9. "A model takes each as an argument": a machine state carries them in its
field `cfg`, and no step changes them. Their values after reset are in Machine/Params.lean. -/
structure Config where
  /-- `XLEN` -/
  xlen : XLen
  /-- `PIPE` -/
  pipe : Pipe
  /-- `ROB_N`, reorder-buffer entries -/
  robN : Nat
  /-- `SB_M`, store-buffer entries -/
  sbM : Nat
  /-- `CLK_PERIOD` in nanoseconds -/
  clkPeriod : Nat
  /-- `MTIME_TICK` in nanoseconds -/
  mtimeTick : Nat
  /-- `MEM_LATENCY` in nanoseconds; timing only (R89) -/
  memLatency : Nat
  /-- `IRQ_LATENCY` in cycles -/
  irqLatency : Nat
  /-- `DMI_ENABLED`, and cleared by an image with an offset-loaded segment (R91) -/
  dmiEnabled : Bool
  /-- `TOHOST_ADDR` -/
  tohostAddr : Word
  /-- `MEM_BASE` -/
  memBase : Word
  /-- `MEM_SIZE` in bytes -/
  memSize : Nat
  /-- `IRQ_CAUSE` -/
  irqCause : Word
  /-- `ENTRY_PC` -/
  entryPc : Word
  /-- `PLIC_NSRC` -/
  plicNsrc : Nat
  /-- `IRQ_GATE_MIE` -/
  irqGateMie : Bool
  /-- which of the spec's two accounts of the word right after a store the 2-stage pipeline follows: false, IF fetches it after
  the store (R486, R123); true, its old bytes are executed (the inference of R124, R533 and V186). The model's own parameter,
  log entry 23 -/
  oldWordAfterStore : Bool
  /-- the targets for which `BOUND(target)` is false (R87) -/
  unbound : List Target
  /-- `MAX_INSTR`, the host's optional instruction cap (R414) -/
  maxInstr : Option Nat
  deriving DecidableEq, Repr

/-- FREE VALUE. The k-th draw of a run: the value of a counter CSR read (R52), of the data of a Read from an
unbound target (R87) and of a Read of the syscall hook's `status` (R462). The spec fixes none of them
("a claim may not depend on it"), so nothing is known of this constant. Assumption log entry 3. -/
opaque Config.draw : Nat → Word

end Sys2Proof
end

