-- ==== Sys2Proof/Syntax.lean ====
section
/-! DEFINITION. The instructions: one constructor per row of spec/opcode_table.json (rows of one mnemonic that differ in
XLEN only share a constructor), with the operands of the row's rule. A branch or jump offset and a scaled offset are held
as the byte count the rule names, its always-zero low bits included; WellFormed.lean says they are zero. -/

namespace Sys2Proof

inductive Instr where
  /-- LUI (R183) -/
  | lui (rd : Reg) (imm20 : BitVec 20)
  /-- AUIPC (R184) -/
  | auipc (rd : Reg) (imm20 : BitVec 20)
  /-- JAL (R250) -/
  | jal (rd : Reg) (off : BitVec 21)
  /-- JALR (R251) -/
  | jalr (rd rs1 : Reg) (imm : BitVec 12)
  /-- BEQ (R244) -/
  | beq (rs1 rs2 : Reg) (off : BitVec 13)
  /-- BNE (R245) -/
  | bne (rs1 rs2 : Reg) (off : BitVec 13)
  /-- BLT (R246) -/
  | blt (rs1 rs2 : Reg) (off : BitVec 13)
  /-- BGE (R247) -/
  | bge (rs1 rs2 : Reg) (off : BitVec 13)
  /-- BLTU (R248) -/
  | bltu (rs1 rs2 : Reg) (off : BitVec 13)
  /-- BGEU (R249) -/
  | bgeu (rs1 rs2 : Reg) (off : BitVec 13)
  /-- LB (R259) -/
  | lb (rd rs1 : Reg) (imm : BitVec 12)
  /-- LH (R260) -/
  | lh (rd rs1 : Reg) (imm : BitVec 12)
  /-- LW (R261) -/
  | lw (rd rs1 : Reg) (imm : BitVec 12)
  /-- LD (R265) -/
  | ld (rd rs1 : Reg) (imm : BitVec 12)
  /-- LBU (R262) -/
  | lbu (rd rs1 : Reg) (imm : BitVec 12)
  /-- LHU (R263) -/
  | lhu (rd rs1 : Reg) (imm : BitVec 12)
  /-- LWU (R264) -/
  | lwu (rd rs1 : Reg) (imm : BitVec 12)
  /-- SB (R266) -/
  | sb (rs1 rs2 : Reg) (imm : BitVec 12)
  /-- SH (R267) -/
  | sh (rs1 rs2 : Reg) (imm : BitVec 12)
  /-- SW (R268) -/
  | sw (rs1 rs2 : Reg) (imm : BitVec 12)
  /-- SD (R269) -/
  | sd (rs1 rs2 : Reg) (imm : BitVec 12)
  /-- ADDI (R185) -/
  | addi (rd rs1 : Reg) (imm : BitVec 12)
  /-- SLTI (R186) -/
  | slti (rd rs1 : Reg) (imm : BitVec 12)
  /-- SLTIU (R187) -/
  | sltiu (rd rs1 : Reg) (imm : BitVec 12)
  /-- XORI (R188) -/
  | xori (rd rs1 : Reg) (imm : BitVec 12)
  /-- ORI (R189) -/
  | ori (rd rs1 : Reg) (imm : BitVec 12)
  /-- ANDI (R190) -/
  | andi (rd rs1 : Reg) (imm : BitVec 12)
  /-- SLLI (R191) -/
  | slli (rd rs1 : Reg) (shamt : BitVec 6)
  /-- SRLI (R192) -/
  | srli (rd rs1 : Reg) (shamt : BitVec 6)
  /-- SRAI (R193) -/
  | srai (rd rs1 : Reg) (shamt : BitVec 6)
  /-- ADD (R194) -/
  | add (rd rs1 rs2 : Reg)
  /-- SUB (R195) -/
  | sub (rd rs1 rs2 : Reg)
  /-- SLL (R196) -/
  | sll (rd rs1 rs2 : Reg)
  /-- SLT (R197) -/
  | slt (rd rs1 rs2 : Reg)
  /-- SLTU (R198) -/
  | sltu (rd rs1 rs2 : Reg)
  /-- XOR (R199) -/
  | xor (rd rs1 rs2 : Reg)
  /-- SRL (R200) -/
  | srl (rd rs1 rs2 : Reg)
  /-- SRA (R201) -/
  | sra (rd rs1 rs2 : Reg)
  /-- OR (R202) -/
  | or (rd rs1 rs2 : Reg)
  /-- AND (R203) -/
  | and (rd rs1 rs2 : Reg)
  /-- ADDIW (R204) -/
  | addiw (rd rs1 : Reg) (imm : BitVec 12)
  /-- SLLIW (R205) -/
  | slliw (rd rs1 : Reg) (shamt : BitVec 5)
  /-- SRLIW (R206) -/
  | srliw (rd rs1 : Reg) (shamt : BitVec 5)
  /-- SRAIW (R207) -/
  | sraiw (rd rs1 : Reg) (shamt : BitVec 5)
  /-- ADDW (R208) -/
  | addw (rd rs1 rs2 : Reg)
  /-- SUBW (R209) -/
  | subw (rd rs1 rs2 : Reg)
  /-- SLLW (R210) -/
  | sllw (rd rs1 rs2 : Reg)
  /-- SRLW (R211) -/
  | srlw (rd rs1 rs2 : Reg)
  /-- SRAW (R212) -/
  | sraw (rd rs1 rs2 : Reg)
  /-- MUL (R277) -/
  | mul (rd rs1 rs2 : Reg)
  /-- MULH (R278) -/
  | mulh (rd rs1 rs2 : Reg)
  /-- MULHSU (R279) -/
  | mulhsu (rd rs1 rs2 : Reg)
  /-- MULHU (R280) -/
  | mulhu (rd rs1 rs2 : Reg)
  /-- DIV (R281) -/
  | div (rd rs1 rs2 : Reg)
  /-- DIVU (R282) -/
  | divu (rd rs1 rs2 : Reg)
  /-- REM (R283) -/
  | rem (rd rs1 rs2 : Reg)
  /-- REMU (R284) -/
  | remu (rd rs1 rs2 : Reg)
  /-- MULW (R285) -/
  | mulw (rd rs1 rs2 : Reg)
  /-- DIVW (R286) -/
  | divw (rd rs1 rs2 : Reg)
  /-- DIVUW (R287) -/
  | divuw (rd rs1 rs2 : Reg)
  /-- REMW (R288) -/
  | remw (rd rs1 rs2 : Reg)
  /-- REMUW (R289) -/
  | remuw (rd rs1 rs2 : Reg)
  /-- LR.W (R305) -/
  | lrW (aq rl : BitVec 1) (rd rs1 : Reg)
  /-- SC.W (R306) -/
  | scW (aq rl : BitVec 1) (rd rs1 rs2 : Reg)
  /-- AMOSWAP.W (R307) -/
  | amoswapW (aq rl : BitVec 1) (rd rs1 rs2 : Reg)
  /-- AMOADD.W (R308) -/
  | amoaddW (aq rl : BitVec 1) (rd rs1 rs2 : Reg)
  /-- AMOXOR.W (R309) -/
  | amoxorW (aq rl : BitVec 1) (rd rs1 rs2 : Reg)
  /-- AMOAND.W (R310) -/
  | amoandW (aq rl : BitVec 1) (rd rs1 rs2 : Reg)
  /-- AMOOR.W (R311) -/
  | amoorW (aq rl : BitVec 1) (rd rs1 rs2 : Reg)
  /-- AMOMIN.W (R312) -/
  | amominW (aq rl : BitVec 1) (rd rs1 rs2 : Reg)
  /-- AMOMAX.W (R313) -/
  | amomaxW (aq rl : BitVec 1) (rd rs1 rs2 : Reg)
  /-- AMOMINU.W (R314) -/
  | amominuW (aq rl : BitVec 1) (rd rs1 rs2 : Reg)
  /-- AMOMAXU.W (R315) -/
  | amomaxuW (aq rl : BitVec 1) (rd rs1 rs2 : Reg)
  /-- LR.D (R316) -/
  | lrD (aq rl : BitVec 1) (rd rs1 : Reg)
  /-- SC.D (R317) -/
  | scD (aq rl : BitVec 1) (rd rs1 rs2 : Reg)
  /-- AMOSWAP.D (R318) -/
  | amoswapD (aq rl : BitVec 1) (rd rs1 rs2 : Reg)
  /-- AMOADD.D (R319) -/
  | amoaddD (aq rl : BitVec 1) (rd rs1 rs2 : Reg)
  /-- AMOXOR.D (R320) -/
  | amoxorD (aq rl : BitVec 1) (rd rs1 rs2 : Reg)
  /-- AMOAND.D (R321) -/
  | amoandD (aq rl : BitVec 1) (rd rs1 rs2 : Reg)
  /-- AMOOR.D (R322) -/
  | amoorD (aq rl : BitVec 1) (rd rs1 rs2 : Reg)
  /-- AMOMIN.D (R323) -/
  | amominD (aq rl : BitVec 1) (rd rs1 rs2 : Reg)
  /-- AMOMAX.D (R324) -/
  | amomaxD (aq rl : BitVec 1) (rd rs1 rs2 : Reg)
  /-- AMOMINU.D (R325) -/
  | amominuD (aq rl : BitVec 1) (rd rs1 rs2 : Reg)
  /-- AMOMAXU.D (R326) -/
  | amomaxuD (aq rl : BitVec 1) (rd rs1 rs2 : Reg)
  /-- CSRRW (R392) -/
  | csrrw (rd : Reg) (csr : CsrAddr) (rs1 : Reg)
  /-- CSRRS (R393) -/
  | csrrs (rd : Reg) (csr : CsrAddr) (rs1 : Reg)
  /-- CSRRC (R394) -/
  | csrrc (rd : Reg) (csr : CsrAddr) (rs1 : Reg)
  /-- CSRRWI (R395) -/
  | csrrwi (rd : Reg) (csr : CsrAddr) (uimm : BitVec 5)
  /-- CSRRSI (R396) -/
  | csrrsi (rd : Reg) (csr : CsrAddr) (uimm : BitVec 5)
  /-- CSRRCI (R397) -/
  | csrrci (rd : Reg) (csr : CsrAddr) (uimm : BitVec 5)
  /-- ECALL (R398) -/
  | ecall
  /-- EBREAK (R400) -/
  | ebreak
  /-- MRET (R401) -/
  | mret
  /-- WFI (R402) -/
  | wfi
  /-- FENCE (R404); no field is checked, each is kept -/
  | fence (fm pred succ : BitVec 4) (rs1 rd : Reg)
  /-- FENCE.I (R405); no field is checked, each is kept -/
  | fenceI (imm : BitVec 12) (rs1 rd : Reg)
  /-- C.ADDI4SPN (R333) -/
  | cAddi4spn (rd : CReg) (uimm : BitVec 10)
  /-- C.LW (R334) -/
  | cLw (rd rs1 : CReg) (uimm : BitVec 7)
  /-- C.LD (R335) -/
  | cLd (rd rs1 : CReg) (uimm : BitVec 8)
  /-- C.SW (R336) -/
  | cSw (rs1 rs2 : CReg) (uimm : BitVec 7)
  /-- C.SD (R337) -/
  | cSd (rs1 rs2 : CReg) (uimm : BitVec 8)
  /-- C.NOP (R338); a non-zero immediate is a hint -/
  | cNop (imm : BitVec 6)
  /-- C.ADDI (R339) -/
  | cAddi (rd : Reg) (imm : BitVec 6)
  /-- C.JAL (R340) -/
  | cJal (off : BitVec 12)
  /-- C.ADDIW (R341) -/
  | cAddiw (rd : Reg) (imm : BitVec 6)
  /-- C.LI (R342) -/
  | cLi (rd : Reg) (imm : BitVec 6)
  /-- C.ADDI16SP (R343) -/
  | cAddi16sp (imm : BitVec 10)
  /-- C.LUI (R344); the field is bits [17:12] of the immediate -/
  | cLui (rd : Reg) (imm : BitVec 6)
  /-- C.SRLI (R345) -/
  | cSrli (rd : CReg) (shamt : BitVec 6)
  /-- C.SRAI (R346) -/
  | cSrai (rd : CReg) (shamt : BitVec 6)
  /-- C.ANDI (R347) -/
  | cAndi (rd : CReg) (imm : BitVec 6)
  /-- C.SUB (R348) -/
  | cSub (rd rs2 : CReg)
  /-- C.XOR (R349) -/
  | cXor (rd rs2 : CReg)
  /-- C.OR (R350) -/
  | cOr (rd rs2 : CReg)
  /-- C.AND (R351) -/
  | cAnd (rd rs2 : CReg)
  /-- C.SUBW (R352) -/
  | cSubw (rd rs2 : CReg)
  /-- C.ADDW (R353) -/
  | cAddw (rd rs2 : CReg)
  /-- C.J (R354) -/
  | cJ (off : BitVec 12)
  /-- C.BEQZ (R355) -/
  | cBeqz (rs1 : CReg) (off : BitVec 9)
  /-- C.BNEZ (R356) -/
  | cBnez (rs1 : CReg) (off : BitVec 9)
  /-- C.SLLI (R357) -/
  | cSlli (rd : Reg) (shamt : BitVec 6)
  /-- C.LWSP (R358) -/
  | cLwsp (rd : Reg) (uimm : BitVec 8)
  /-- C.LDSP (R359) -/
  | cLdsp (rd : Reg) (uimm : BitVec 9)
  /-- C.JR (R360) -/
  | cJr (rs1 : Reg)
  /-- C.MV (R361) -/
  | cMv (rd rs2 : Reg)
  /-- C.EBREAK (R362) -/
  | cEbreak
  /-- C.JALR (R363) -/
  | cJalr (rs1 : Reg)
  /-- C.ADD (R364) -/
  | cAdd (rd rs2 : Reg)
  /-- C.SWSP (R365) -/
  | cSwsp (rs2 : Reg) (uimm : BitVec 8)
  /-- C.SDSP (R366) -/
  | cSdsp (rs2 : Reg) (uimm : BitVec 9)
  deriving DecidableEq, Repr

end Sys2Proof
end

