-- ==== Sys2Proof/WellFormed.lean ====
section
/-! DEFINITION. Which instruction terms the machine can hold: the row exists at the current XLEN (R154) and every operand
is one the row's encoding can carry (R143, R332 to R366, and "unknown_when" of spec/opcode_table.json). -/

namespace Sys2Proof

/-- The row is one of the rows of this XLEN (R154). -/
def Instr.inXLen (xl : XLen) : Instr → Bool
  | .ld _ _ _ | .lwu _ _ _ | .sd _ _ _ | .addiw _ _ _ | .slliw _ _ _ | .srliw _ _ _ | .sraiw _ _ _
  | .addw _ _ _ | .subw _ _ _ | .sllw _ _ _ | .srlw _ _ _ | .sraw _ _ _ | .mulw _ _ _ | .divw _ _ _
  | .divuw _ _ _ | .remw _ _ _ | .remuw _ _ _ | .lrD _ _ _ _ | .scD _ _ _ _ _ | .amoswapD _ _ _ _ _
  | .amoaddD _ _ _ _ _ | .amoxorD _ _ _ _ _ | .amoandD _ _ _ _ _ | .amoorD _ _ _ _ _ | .amominD _ _ _ _ _
  | .amomaxD _ _ _ _ _ | .amominuD _ _ _ _ _ | .amomaxuD _ _ _ _ _ | .cLd _ _ _ | .cSd _ _ _ | .cAddiw _ _
  | .cSubw _ _ | .cAddw _ _ | .cLdsp _ _ | .cSdsp _ _ => xl == .rv64
  | .cJal _ => xl == .rv32
  | .lui _ _ | .auipc _ _ | .jal _ _ | .jalr _ _ _ | .beq _ _ _ | .bne _ _ _ | .blt _ _ _ | .bge _ _ _
  | .bltu _ _ _ | .bgeu _ _ _ | .lb _ _ _ | .lh _ _ _ | .lw _ _ _ | .lbu _ _ _ | .lhu _ _ _ | .sb _ _ _
  | .sh _ _ _ | .sw _ _ _ | .addi _ _ _ | .slti _ _ _ | .sltiu _ _ _ | .xori _ _ _ | .ori _ _ _ | .andi _ _ _
  | .slli _ _ _ | .srli _ _ _ | .srai _ _ _ | .add _ _ _ | .sub _ _ _ | .sll _ _ _ | .slt _ _ _ | .sltu _ _ _
  | .xor _ _ _ | .srl _ _ _ | .sra _ _ _ | .or _ _ _ | .and _ _ _ | .mul _ _ _ | .mulh _ _ _ | .mulhsu _ _ _
  | .mulhu _ _ _ | .div _ _ _ | .divu _ _ _ | .rem _ _ _ | .remu _ _ _ | .lrW _ _ _ _ | .scW _ _ _ _ _
  | .amoswapW _ _ _ _ _ | .amoaddW _ _ _ _ _ | .amoxorW _ _ _ _ _ | .amoandW _ _ _ _ _ | .amoorW _ _ _ _ _
  | .amominW _ _ _ _ _ | .amomaxW _ _ _ _ _ | .amominuW _ _ _ _ _ | .amomaxuW _ _ _ _ _ | .csrrw _ _ _
  | .csrrs _ _ _ | .csrrc _ _ _ | .csrrwi _ _ _ | .csrrsi _ _ _ | .csrrci _ _ _ | .ecall | .ebreak | .mret
  | .wfi | .fence _ _ _ _ _ | .fenceI _ _ _ | .cAddi4spn _ _ | .cLw _ _ _ | .cSw _ _ _ | .cNop _ | .cAddi _ _
  | .cLi _ _ | .cAddi16sp _ | .cLui _ _ | .cSrli _ _ | .cSrai _ _ | .cAndi _ _ | .cSub _ _ | .cXor _ _
  | .cOr _ _ | .cAnd _ _ | .cJ _ | .cBeqz _ _ | .cBnez _ _ | .cSlli _ _ | .cLwsp _ _ | .cJr _ | .cMv _ _
  | .cEbreak | .cJalr _ | .cAdd _ _ | .cSwsp _ _ => true

/-- The n low bits are zero: an offset is a multiple of 2^n. -/
def lowZero (n : Nat) {w : Nat} (v : BitVec w) : Bool := v.setWidth n == 0

/-- RV32 immediate shifts need shamt[5] = 0 (R154). -/
def shamtOk (xl : XLen) (shamt : BitVec 6) : Bool := xl == .rv64 || decide (shamt.toNat < 32)

/-- The operands are ones the row's encoding can carry. -/
def Instr.operandsOk (xl : XLen) : Instr → Bool
  | .jal _ off => lowZero 1 off
  | .beq _ _ off => lowZero 1 off
  | .bne _ _ off => lowZero 1 off
  | .blt _ _ off => lowZero 1 off
  | .bge _ _ off => lowZero 1 off
  | .bltu _ _ off => lowZero 1 off
  | .bgeu _ _ off => lowZero 1 off
  | .slli _ _ shamt => shamtOk xl shamt
  | .srli _ _ shamt => shamtOk xl shamt
  | .srai _ _ shamt => shamtOk xl shamt
  | .cAddi4spn _ uimm => lowZero 2 uimm && uimm != 0
  | .cLw _ _ uimm => lowZero 2 uimm
  | .cLd _ _ uimm => lowZero 3 uimm
  | .cSw _ _ uimm => lowZero 2 uimm
  | .cSd _ _ uimm => lowZero 3 uimm
  | .cAddi rd _ => rd != 0
  | .cJal off => lowZero 1 off
  | .cAddiw rd _ => rd != 0
  | .cAddi16sp imm => lowZero 4 imm && imm != 0
  | .cLui rd imm => rd != 2 && imm != 0
  | .cSrli _ shamt => shamtOk xl shamt
  | .cSrai _ shamt => shamtOk xl shamt
  | .cJ off => lowZero 1 off
  | .cBeqz _ off => lowZero 1 off
  | .cBnez _ off => lowZero 1 off
  | .cSlli _ shamt => shamtOk xl shamt
  | .cLwsp rd uimm => rd != 0 && lowZero 2 uimm
  | .cLdsp rd uimm => rd != 0 && lowZero 3 uimm
  | .cJr rs1 => rs1 != 0
  | .cMv _ rs2 => rs2 != 0
  | .cJalr rs1 => rs1 != 0
  | .cAdd _ rs2 => rs2 != 0
  | .cSwsp _ uimm => lowZero 2 uimm
  | .cSdsp _ uimm => lowZero 3 uimm
  | .lui _ _ | .auipc _ _ | .jalr _ _ _ | .lb _ _ _ | .lh _ _ _ | .lw _ _ _ | .ld _ _ _ | .lbu _ _ _
  | .lhu _ _ _ | .lwu _ _ _ | .sb _ _ _ | .sh _ _ _ | .sw _ _ _ | .sd _ _ _ | .addi _ _ _ | .slti _ _ _
  | .sltiu _ _ _ | .xori _ _ _ | .ori _ _ _ | .andi _ _ _ | .add _ _ _ | .sub _ _ _ | .sll _ _ _ | .slt _ _ _
  | .sltu _ _ _ | .xor _ _ _ | .srl _ _ _ | .sra _ _ _ | .or _ _ _ | .and _ _ _ | .addiw _ _ _ | .slliw _ _ _
  | .srliw _ _ _ | .sraiw _ _ _ | .addw _ _ _ | .subw _ _ _ | .sllw _ _ _ | .srlw _ _ _ | .sraw _ _ _
  | .mul _ _ _ | .mulh _ _ _ | .mulhsu _ _ _ | .mulhu _ _ _ | .div _ _ _ | .divu _ _ _ | .rem _ _ _
  | .remu _ _ _ | .mulw _ _ _ | .divw _ _ _ | .divuw _ _ _ | .remw _ _ _ | .remuw _ _ _ | .lrW _ _ _ _
  | .scW _ _ _ _ _ | .amoswapW _ _ _ _ _ | .amoaddW _ _ _ _ _ | .amoxorW _ _ _ _ _ | .amoandW _ _ _ _ _
  | .amoorW _ _ _ _ _ | .amominW _ _ _ _ _ | .amomaxW _ _ _ _ _ | .amominuW _ _ _ _ _ | .amomaxuW _ _ _ _ _
  | .lrD _ _ _ _ | .scD _ _ _ _ _ | .amoswapD _ _ _ _ _ | .amoaddD _ _ _ _ _ | .amoxorD _ _ _ _ _
  | .amoandD _ _ _ _ _ | .amoorD _ _ _ _ _ | .amominD _ _ _ _ _ | .amomaxD _ _ _ _ _ | .amominuD _ _ _ _ _
  | .amomaxuD _ _ _ _ _ | .csrrw _ _ _ | .csrrs _ _ _ | .csrrc _ _ _ | .csrrwi _ _ _ | .csrrsi _ _ _
  | .csrrci _ _ _ | .ecall | .ebreak | .mret | .wfi | .fence _ _ _ _ _ | .fenceI _ _ _ | .cNop _ | .cLi _ _
  | .cAndi _ _ | .cSub _ _ | .cXor _ _ | .cOr _ _ | .cAnd _ _ | .cSubw _ _ | .cAddw _ _ | .cEbreak => true

/-- A well-formed instruction of the machine at this XLEN. -/
def Instr.wf (xl : XLen) (i : Instr) : Bool := i.inXLen xl && i.operandsOk xl

end Sys2Proof
end

