-- ==== Sys2Proof/Decode.lean ====
section
/-! DEFINITION. Decoding a fetched 32-bit word (R140 to R163) and encoding an instruction, both written from the spec's
formats (R142, R145) and immediate scatters (R143, R333 to R366). A compressed instruction is the low half of the word
(R141). A word that matches no row is rejected by name; the machine executes it as a NOP (R160). -/

namespace Sys2Proof

/-! ### Fields of 32-bit words (R142) -/

def rdOf (w : BitVec 32) : Reg := w.extractLsb 11 7
def rs1Of (w : BitVec 32) : Reg := w.extractLsb 19 15
def rs2Of (w : BitVec 32) : Reg := w.extractLsb 24 20
def funct3Of (w : BitVec 32) : BitVec 3 := w.extractLsb 14 12
def funct7Of (w : BitVec 32) : BitVec 7 := w.extractLsb 31 25
def opcodeOf (w : BitVec 32) : BitVec 7 := w.extractLsb 6 0
def csrOf (w : BitVec 32) : CsrAddr := w.extractLsb 31 20
def aqOf (w : BitVec 32) : BitVec 1 := w.extractLsb 26 26
def rlOf (w : BitVec 32) : BitVec 1 := w.extractLsb 25 25
def shamt6 (w : BitVec 32) : BitVec 6 := w.extractLsb 25 20
def fmOf (w : BitVec 32) : BitVec 4 := w.extractLsb 31 28
def predOf (w : BitVec 32) : BitVec 4 := w.extractLsb 27 24
def succOf (w : BitVec 32) : BitVec 4 := w.extractLsb 23 20

/-! ### Immediates of 32-bit words, before sign extension (R143) -/

def immI (w : BitVec 32) : BitVec 12 := w.extractLsb 31 20
def immS (w : BitVec 32) : BitVec 12 := w.extractLsb 31 25 ++ w.extractLsb 11 7
def immB (w : BitVec 32) : BitVec 13 :=
  w.extractLsb 31 31 ++ w.extractLsb 7 7 ++ w.extractLsb 30 25 ++ w.extractLsb 11 8 ++ 0#1
def immU (w : BitVec 32) : BitVec 20 := w.extractLsb 31 12
def immJ (w : BitVec 32) : BitVec 21 :=
  w.extractLsb 31 31 ++ w.extractLsb 19 12 ++ w.extractLsb 20 20 ++ w.extractLsb 30 21 ++ 0#1

/-! ### Fields and immediates of compressed words (R145, R331, R333 to R366) -/

def cLow3 (w : BitVec 32) : CReg := w.extractLsb 4 2
def cMid3 (w : BitVec 32) : CReg := w.extractLsb 9 7
def cRs2 (w : BitVec 32) : Reg := w.extractLsb 6 2
def cImm6 (w : BitVec 32) : BitVec 6 := w.extractLsb 12 12 ++ w.extractLsb 6 2
/-- C.ADDI4SPN (R333): nzuimm[9:6] = w[10:7], [5:4] = w[12:11], [3] = w[5], [2] = w[6]. -/
def cUimmAddi4spn (w : BitVec 32) : BitVec 10 :=
  w.extractLsb 10 7 ++ w.extractLsb 12 11 ++ w.extractLsb 5 5 ++ w.extractLsb 6 6 ++ 0#2
/-- C.LW and C.SW (R334): uimm[6] = w[5], [5:3] = w[12:10], [2] = w[6]. -/
def cUimmW (w : BitVec 32) : BitVec 7 := w.extractLsb 5 5 ++ w.extractLsb 12 10 ++ w.extractLsb 6 6 ++ 0#2
/-- C.LD and C.SD (R335): uimm[7:6] = w[6:5], [5:3] = w[12:10]. -/
def cUimmD (w : BitVec 32) : BitVec 8 := w.extractLsb 6 5 ++ w.extractLsb 12 10 ++ 0#3
/-- C.JAL and C.J (R340). -/
def cOffJ (w : BitVec 32) : BitVec 12 :=
  w.extractLsb 12 12 ++ w.extractLsb 8 8 ++ w.extractLsb 10 9 ++ w.extractLsb 6 6 ++ w.extractLsb 7 7 ++
    w.extractLsb 2 2 ++ w.extractLsb 11 11 ++ w.extractLsb 5 3 ++ 0#1
/-- C.ADDI16SP (R343): nzimm[9] = w[12], [8:7] = w[4:3], [6] = w[5], [5] = w[2], [4] = w[6]. -/
def cImm16sp (w : BitVec 32) : BitVec 10 :=
  w.extractLsb 12 12 ++ w.extractLsb 4 3 ++ w.extractLsb 5 5 ++ w.extractLsb 2 2 ++ w.extractLsb 6 6 ++ 0#4
/-- C.BEQZ and C.BNEZ (R355): offset[8] = w[12], [7:6] = w[6:5], [5] = w[2], [4:3] = w[11:10], [2:1] = w[4:3]. -/
def cOffB (w : BitVec 32) : BitVec 9 :=
  w.extractLsb 12 12 ++ w.extractLsb 6 5 ++ w.extractLsb 2 2 ++ w.extractLsb 11 10 ++ w.extractLsb 4 3 ++ 0#1
/-- C.LWSP (R358): uimm[7:6] = w[3:2], [5] = w[12], [4:2] = w[6:4]. -/
def cUimmLwsp (w : BitVec 32) : BitVec 8 := w.extractLsb 3 2 ++ w.extractLsb 12 12 ++ w.extractLsb 6 4 ++ 0#2
/-- C.LDSP (R359): uimm[8:6] = w[4:2], [5] = w[12], [4:3] = w[6:5]. -/
def cUimmLdsp (w : BitVec 32) : BitVec 9 := w.extractLsb 4 2 ++ w.extractLsb 12 12 ++ w.extractLsb 6 5 ++ 0#3
/-- C.SWSP (R365): uimm[7:6] = w[8:7], [5:2] = w[12:9]. -/
def cUimmSwsp (w : BitVec 32) : BitVec 8 := w.extractLsb 8 7 ++ w.extractLsb 12 9 ++ 0#2
/-- C.SDSP (R366): uimm[8:6] = w[9:7], [5:3] = w[12:10]. -/
def cUimmSdsp (w : BitVec 32) : BitVec 9 := w.extractLsb 9 7 ++ w.extractLsb 12 10 ++ 0#3

/-! ### The opcode table (R153, R154) -/

/-- One row: the XLEN it belongs to (none: both), its mask and match, the (mask, value) pairs of field values for which
the word is not this row ("unknown_when"), and the instruction of a matching word. -/
structure Row where
  xlen : Option XLen
  mask : BitVec 32
  value : BitVec 32
  excluded : List (BitVec 32 × BitVec 32)
  build : BitVec 32 → Instr

/-- R153: "A word is instruction I when word & mask(I) == match(I)", with the rows of the current XLEN only. -/
def Row.accepts (r : Row) (xl : XLen) (w : BitVec 32) : Bool :=
  (r.xlen == none || r.xlen == some xl) && w &&& r.mask == r.value && r.excluded.all (fun e => w &&& e.1 != e.2)

/-- The rows of LUI and AUIPC. -/
def rowsUpper : List Row :=
  [ ⟨none, 0x0000007F, 0x00000037, [], fun w => .lui (rdOf w) (immU w)⟩,
    ⟨none, 0x0000007F, 0x00000017, [], fun w => .auipc (rdOf w) (immU w)⟩ ]

/-- The rows of branches and jumps. -/
def rowsControl : List Row :=
  [ ⟨none, 0x0000007F, 0x0000006F, [], fun w => .jal (rdOf w) (immJ w)⟩,
    ⟨none, 0x0000707F, 0x00000067, [], fun w => .jalr (rdOf w) (rs1Of w) (immI w)⟩,
    ⟨none, 0x0000707F, 0x00000063, [], fun w => .beq (rs1Of w) (rs2Of w) (immB w)⟩,
    ⟨none, 0x0000707F, 0x00001063, [], fun w => .bne (rs1Of w) (rs2Of w) (immB w)⟩,
    ⟨none, 0x0000707F, 0x00004063, [], fun w => .blt (rs1Of w) (rs2Of w) (immB w)⟩,
    ⟨none, 0x0000707F, 0x00005063, [], fun w => .bge (rs1Of w) (rs2Of w) (immB w)⟩,
    ⟨none, 0x0000707F, 0x00006063, [], fun w => .bltu (rs1Of w) (rs2Of w) (immB w)⟩,
    ⟨none, 0x0000707F, 0x00007063, [], fun w => .bgeu (rs1Of w) (rs2Of w) (immB w)⟩ ]

/-- The rows of loads and stores. -/
def rowsLoadStore : List Row :=
  [ ⟨none, 0x0000707F, 0x00000003, [], fun w => .lb (rdOf w) (rs1Of w) (immI w)⟩,
    ⟨none, 0x0000707F, 0x00001003, [], fun w => .lh (rdOf w) (rs1Of w) (immI w)⟩,
    ⟨none, 0x0000707F, 0x00002003, [], fun w => .lw (rdOf w) (rs1Of w) (immI w)⟩,
    ⟨some .rv64, 0x0000707F, 0x00003003, [], fun w => .ld (rdOf w) (rs1Of w) (immI w)⟩,
    ⟨none, 0x0000707F, 0x00004003, [], fun w => .lbu (rdOf w) (rs1Of w) (immI w)⟩,
    ⟨none, 0x0000707F, 0x00005003, [], fun w => .lhu (rdOf w) (rs1Of w) (immI w)⟩,
    ⟨some .rv64, 0x0000707F, 0x00006003, [], fun w => .lwu (rdOf w) (rs1Of w) (immI w)⟩,
    ⟨none, 0x0000707F, 0x00000023, [], fun w => .sb (rs1Of w) (rs2Of w) (immS w)⟩,
    ⟨none, 0x0000707F, 0x00001023, [], fun w => .sh (rs1Of w) (rs2Of w) (immS w)⟩,
    ⟨none, 0x0000707F, 0x00002023, [], fun w => .sw (rs1Of w) (rs2Of w) (immS w)⟩,
    ⟨some .rv64, 0x0000707F, 0x00003023, [], fun w => .sd (rs1Of w) (rs2Of w) (immS w)⟩ ]

/-- The rows of OP-IMM. -/
def rowsOpImm : List Row :=
  [ ⟨none, 0x0000707F, 0x00000013, [], fun w => .addi (rdOf w) (rs1Of w) (immI w)⟩,
    ⟨none, 0x0000707F, 0x00002013, [], fun w => .slti (rdOf w) (rs1Of w) (immI w)⟩,
    ⟨none, 0x0000707F, 0x00003013, [], fun w => .sltiu (rdOf w) (rs1Of w) (immI w)⟩,
    ⟨none, 0x0000707F, 0x00004013, [], fun w => .xori (rdOf w) (rs1Of w) (immI w)⟩,
    ⟨none, 0x0000707F, 0x00006013, [], fun w => .ori (rdOf w) (rs1Of w) (immI w)⟩,
    ⟨none, 0x0000707F, 0x00007013, [], fun w => .andi (rdOf w) (rs1Of w) (immI w)⟩,
    ⟨some .rv32, 0xFE00707F, 0x00001013, [], fun w => .slli (rdOf w) (rs1Of w) (shamt6 w)⟩,
    ⟨some .rv64, 0xFC00707F, 0x00001013, [], fun w => .slli (rdOf w) (rs1Of w) (shamt6 w)⟩,
    ⟨some .rv32, 0xFE00707F, 0x00005013, [], fun w => .srli (rdOf w) (rs1Of w) (shamt6 w)⟩,
    ⟨some .rv64, 0xFC00707F, 0x00005013, [], fun w => .srli (rdOf w) (rs1Of w) (shamt6 w)⟩,
    ⟨some .rv32, 0xFE00707F, 0x40005013, [], fun w => .srai (rdOf w) (rs1Of w) (shamt6 w)⟩,
    ⟨some .rv64, 0xFC00707F, 0x40005013, [], fun w => .srai (rdOf w) (rs1Of w) (shamt6 w)⟩ ]

/-- The rows of OP. -/
def rowsOp : List Row :=
  [ ⟨none, 0xFE00707F, 0x00000033, [], fun w => .add (rdOf w) (rs1Of w) (rs2Of w)⟩,
    ⟨none, 0xFE00707F, 0x40000033, [], fun w => .sub (rdOf w) (rs1Of w) (rs2Of w)⟩,
    ⟨none, 0xFE00707F, 0x00001033, [], fun w => .sll (rdOf w) (rs1Of w) (rs2Of w)⟩,
    ⟨none, 0xFE00707F, 0x00002033, [], fun w => .slt (rdOf w) (rs1Of w) (rs2Of w)⟩,
    ⟨none, 0xFE00707F, 0x00003033, [], fun w => .sltu (rdOf w) (rs1Of w) (rs2Of w)⟩,
    ⟨none, 0xFE00707F, 0x00004033, [], fun w => .xor (rdOf w) (rs1Of w) (rs2Of w)⟩,
    ⟨none, 0xFE00707F, 0x00005033, [], fun w => .srl (rdOf w) (rs1Of w) (rs2Of w)⟩,
    ⟨none, 0xFE00707F, 0x40005033, [], fun w => .sra (rdOf w) (rs1Of w) (rs2Of w)⟩,
    ⟨none, 0xFE00707F, 0x00006033, [], fun w => .or (rdOf w) (rs1Of w) (rs2Of w)⟩,
    ⟨none, 0xFE00707F, 0x00007033, [], fun w => .and (rdOf w) (rs1Of w) (rs2Of w)⟩ ]

/-- The rows of OP-IMM-32 and OP-32 (RV64). -/
def rowsWord : List Row :=
  [ ⟨some .rv64, 0x0000707F, 0x0000001B, [], fun w => .addiw (rdOf w) (rs1Of w) (immI w)⟩,
    ⟨some .rv64, 0xFE00707F, 0x0000101B, [], fun w => .slliw (rdOf w) (rs1Of w) (rs2Of w)⟩,
    ⟨some .rv64, 0xFE00707F, 0x0000501B, [], fun w => .srliw (rdOf w) (rs1Of w) (rs2Of w)⟩,
    ⟨some .rv64, 0xFE00707F, 0x4000501B, [], fun w => .sraiw (rdOf w) (rs1Of w) (rs2Of w)⟩,
    ⟨some .rv64, 0xFE00707F, 0x0000003B, [], fun w => .addw (rdOf w) (rs1Of w) (rs2Of w)⟩,
    ⟨some .rv64, 0xFE00707F, 0x4000003B, [], fun w => .subw (rdOf w) (rs1Of w) (rs2Of w)⟩,
    ⟨some .rv64, 0xFE00707F, 0x0000103B, [], fun w => .sllw (rdOf w) (rs1Of w) (rs2Of w)⟩,
    ⟨some .rv64, 0xFE00707F, 0x0000503B, [], fun w => .srlw (rdOf w) (rs1Of w) (rs2Of w)⟩,
    ⟨some .rv64, 0xFE00707F, 0x4000503B, [], fun w => .sraw (rdOf w) (rs1Of w) (rs2Of w)⟩ ]

/-- The rows of the M extension. -/
def rowsMulDiv : List Row :=
  [ ⟨none, 0xFE00707F, 0x02000033, [], fun w => .mul (rdOf w) (rs1Of w) (rs2Of w)⟩,
    ⟨none, 0xFE00707F, 0x02001033, [], fun w => .mulh (rdOf w) (rs1Of w) (rs2Of w)⟩,
    ⟨none, 0xFE00707F, 0x02002033, [], fun w => .mulhsu (rdOf w) (rs1Of w) (rs2Of w)⟩,
    ⟨none, 0xFE00707F, 0x02003033, [], fun w => .mulhu (rdOf w) (rs1Of w) (rs2Of w)⟩,
    ⟨none, 0xFE00707F, 0x02004033, [], fun w => .div (rdOf w) (rs1Of w) (rs2Of w)⟩,
    ⟨none, 0xFE00707F, 0x02005033, [], fun w => .divu (rdOf w) (rs1Of w) (rs2Of w)⟩,
    ⟨none, 0xFE00707F, 0x02006033, [], fun w => .rem (rdOf w) (rs1Of w) (rs2Of w)⟩,
    ⟨none, 0xFE00707F, 0x02007033, [], fun w => .remu (rdOf w) (rs1Of w) (rs2Of w)⟩,
    ⟨some .rv64, 0xFE00707F, 0x0200003B, [], fun w => .mulw (rdOf w) (rs1Of w) (rs2Of w)⟩,
    ⟨some .rv64, 0xFE00707F, 0x0200403B, [], fun w => .divw (rdOf w) (rs1Of w) (rs2Of w)⟩,
    ⟨some .rv64, 0xFE00707F, 0x0200503B, [], fun w => .divuw (rdOf w) (rs1Of w) (rs2Of w)⟩,
    ⟨some .rv64, 0xFE00707F, 0x0200603B, [], fun w => .remw (rdOf w) (rs1Of w) (rs2Of w)⟩,
    ⟨some .rv64, 0xFE00707F, 0x0200703B, [], fun w => .remuw (rdOf w) (rs1Of w) (rs2Of w)⟩ ]

/-- The rows of the .W rows of the A extension. -/
def rowsAtomicW : List Row :=
  [ ⟨none, 0xF9F0707F, 0x1000202F, [], fun w => .lrW (aqOf w) (rlOf w) (rdOf w) (rs1Of w)⟩,
    ⟨none, 0xF800707F, 0x1800202F, [], fun w => .scW (aqOf w) (rlOf w) (rdOf w) (rs1Of w) (rs2Of w)⟩,
    ⟨none, 0xF800707F, 0x0800202F, [], fun w => .amoswapW (aqOf w) (rlOf w) (rdOf w) (rs1Of w) (rs2Of w)⟩,
    ⟨none, 0xF800707F, 0x0000202F, [], fun w => .amoaddW (aqOf w) (rlOf w) (rdOf w) (rs1Of w) (rs2Of w)⟩,
    ⟨none, 0xF800707F, 0x2000202F, [], fun w => .amoxorW (aqOf w) (rlOf w) (rdOf w) (rs1Of w) (rs2Of w)⟩,
    ⟨none, 0xF800707F, 0x6000202F, [], fun w => .amoandW (aqOf w) (rlOf w) (rdOf w) (rs1Of w) (rs2Of w)⟩,
    ⟨none, 0xF800707F, 0x4000202F, [], fun w => .amoorW (aqOf w) (rlOf w) (rdOf w) (rs1Of w) (rs2Of w)⟩,
    ⟨none, 0xF800707F, 0x8000202F, [], fun w => .amominW (aqOf w) (rlOf w) (rdOf w) (rs1Of w) (rs2Of w)⟩,
    ⟨none, 0xF800707F, 0xA000202F, [], fun w => .amomaxW (aqOf w) (rlOf w) (rdOf w) (rs1Of w) (rs2Of w)⟩,
    ⟨none, 0xF800707F, 0xC000202F, [], fun w => .amominuW (aqOf w) (rlOf w) (rdOf w) (rs1Of w) (rs2Of w)⟩,
    ⟨none, 0xF800707F, 0xE000202F, [], fun w => .amomaxuW (aqOf w) (rlOf w) (rdOf w) (rs1Of w) (rs2Of w)⟩ ]

/-- The rows of the .D rows of the A extension. -/
def rowsAtomicD : List Row :=
  [ ⟨some .rv64, 0xF9F0707F, 0x1000302F, [], fun w => .lrD (aqOf w) (rlOf w) (rdOf w) (rs1Of w)⟩,
    ⟨some .rv64, 0xF800707F, 0x1800302F, [], fun w => .scD (aqOf w) (rlOf w) (rdOf w) (rs1Of w) (rs2Of w)⟩,
    ⟨some .rv64, 0xF800707F, 0x0800302F, [], fun w => .amoswapD (aqOf w) (rlOf w) (rdOf w) (rs1Of w) (rs2Of w)⟩,
    ⟨some .rv64, 0xF800707F, 0x0000302F, [], fun w => .amoaddD (aqOf w) (rlOf w) (rdOf w) (rs1Of w) (rs2Of w)⟩,
    ⟨some .rv64, 0xF800707F, 0x2000302F, [], fun w => .amoxorD (aqOf w) (rlOf w) (rdOf w) (rs1Of w) (rs2Of w)⟩,
    ⟨some .rv64, 0xF800707F, 0x6000302F, [], fun w => .amoandD (aqOf w) (rlOf w) (rdOf w) (rs1Of w) (rs2Of w)⟩,
    ⟨some .rv64, 0xF800707F, 0x4000302F, [], fun w => .amoorD (aqOf w) (rlOf w) (rdOf w) (rs1Of w) (rs2Of w)⟩,
    ⟨some .rv64, 0xF800707F, 0x8000302F, [], fun w => .amominD (aqOf w) (rlOf w) (rdOf w) (rs1Of w) (rs2Of w)⟩,
    ⟨some .rv64, 0xF800707F, 0xA000302F, [], fun w => .amomaxD (aqOf w) (rlOf w) (rdOf w) (rs1Of w) (rs2Of w)⟩,
    ⟨some .rv64, 0xF800707F, 0xC000302F, [], fun w => .amominuD (aqOf w) (rlOf w) (rdOf w) (rs1Of w) (rs2Of w)⟩,
    ⟨some .rv64, 0xF800707F, 0xE000302F, [], fun w => .amomaxuD (aqOf w) (rlOf w) (rdOf w) (rs1Of w) (rs2Of w)⟩ ]

/-- The rows of SYSTEM and MISC-MEM. -/
def rowsSystem : List Row :=
  [ ⟨none, 0x0000707F, 0x00001073, [], fun w => .csrrw (rdOf w) (csrOf w) (rs1Of w)⟩,
    ⟨none, 0x0000707F, 0x00002073, [], fun w => .csrrs (rdOf w) (csrOf w) (rs1Of w)⟩,
    ⟨none, 0x0000707F, 0x00003073, [], fun w => .csrrc (rdOf w) (csrOf w) (rs1Of w)⟩,
    ⟨none, 0x0000707F, 0x00005073, [], fun w => .csrrwi (rdOf w) (csrOf w) (rs1Of w)⟩,
    ⟨none, 0x0000707F, 0x00006073, [], fun w => .csrrsi (rdOf w) (csrOf w) (rs1Of w)⟩,
    ⟨none, 0x0000707F, 0x00007073, [], fun w => .csrrci (rdOf w) (csrOf w) (rs1Of w)⟩,
    ⟨none, 0xFFFFFFFF, 0x00000073, [], fun _ => .ecall⟩,
    ⟨none, 0xFFFFFFFF, 0x00100073, [], fun _ => .ebreak⟩,
    ⟨none, 0xFFFFFFFF, 0x30200073, [], fun _ => .mret⟩,
    ⟨none, 0xFFFFFFFF, 0x10500073, [], fun _ => .wfi⟩,
    ⟨none, 0x0000707F, 0x0000000F, [], fun w => .fence (fmOf w) (predOf w) (succOf w) (rs1Of w) (rdOf w)⟩,
    ⟨none, 0x0000707F, 0x0000100F, [], fun w => .fenceI (immI w) (rs1Of w) (rdOf w)⟩ ]

/-- The rows of compressed quadrant 0. -/
def rowsC0 : List Row :=
  [ ⟨none, 0xE003, 0x0000, [(0x1FE0, 0)], fun w => .cAddi4spn (cLow3 w) (cUimmAddi4spn w)⟩,
    ⟨none, 0xE003, 0x4000, [], fun w => .cLw (cLow3 w) (cMid3 w) (cUimmW w)⟩,
    ⟨some .rv64, 0xE003, 0x6000, [], fun w => .cLd (cLow3 w) (cMid3 w) (cUimmD w)⟩,
    ⟨none, 0xE003, 0xC000, [], fun w => .cSw (cMid3 w) (cLow3 w) (cUimmW w)⟩,
    ⟨some .rv64, 0xE003, 0xE000, [], fun w => .cSd (cMid3 w) (cLow3 w) (cUimmD w)⟩ ]

/-- The rows of compressed quadrant 1. -/
def rowsC1 : List Row :=
  [ ⟨none, 0xEF83, 0x0001, [], fun w => .cNop (cImm6 w)⟩,
    ⟨none, 0xE003, 0x0001, [(0x0F80, 0)], fun w => .cAddi (rdOf w) (cImm6 w)⟩,
    ⟨some .rv32, 0xE003, 0x2001, [], fun w => .cJal (cOffJ w)⟩,
    ⟨some .rv64, 0xE003, 0x2001, [(0x0F80, 0)], fun w => .cAddiw (rdOf w) (cImm6 w)⟩,
    ⟨none, 0xE003, 0x4001, [], fun w => .cLi (rdOf w) (cImm6 w)⟩,
    ⟨none, 0xEF83, 0x6101, [(0x107C, 0)], fun w => .cAddi16sp (cImm16sp w)⟩,
    ⟨none, 0xE003, 0x6001, [(0x0F80, 0x0100), (0x107C, 0)], fun w => .cLui (rdOf w) (cImm6 w)⟩,
    ⟨some .rv32, 0xFC03, 0x8001, [], fun w => .cSrli (cMid3 w) (cImm6 w)⟩,
    ⟨some .rv64, 0xEC03, 0x8001, [], fun w => .cSrli (cMid3 w) (cImm6 w)⟩,
    ⟨some .rv32, 0xFC03, 0x8401, [], fun w => .cSrai (cMid3 w) (cImm6 w)⟩,
    ⟨some .rv64, 0xEC03, 0x8401, [], fun w => .cSrai (cMid3 w) (cImm6 w)⟩,
    ⟨none, 0xEC03, 0x8801, [], fun w => .cAndi (cMid3 w) (cImm6 w)⟩,
    ⟨none, 0xFC63, 0x8C01, [], fun w => .cSub (cMid3 w) (cLow3 w)⟩,
    ⟨none, 0xFC63, 0x8C21, [], fun w => .cXor (cMid3 w) (cLow3 w)⟩,
    ⟨none, 0xFC63, 0x8C41, [], fun w => .cOr (cMid3 w) (cLow3 w)⟩,
    ⟨none, 0xFC63, 0x8C61, [], fun w => .cAnd (cMid3 w) (cLow3 w)⟩,
    ⟨some .rv64, 0xFC63, 0x9C01, [], fun w => .cSubw (cMid3 w) (cLow3 w)⟩,
    ⟨some .rv64, 0xFC63, 0x9C21, [], fun w => .cAddw (cMid3 w) (cLow3 w)⟩,
    ⟨none, 0xE003, 0xA001, [], fun w => .cJ (cOffJ w)⟩,
    ⟨none, 0xE003, 0xC001, [], fun w => .cBeqz (cMid3 w) (cOffB w)⟩,
    ⟨none, 0xE003, 0xE001, [], fun w => .cBnez (cMid3 w) (cOffB w)⟩ ]

/-- The rows of compressed quadrant 2. -/
def rowsC2 : List Row :=
  [ ⟨some .rv32, 0xF003, 0x0002, [], fun w => .cSlli (rdOf w) (cImm6 w)⟩,
    ⟨some .rv64, 0xE003, 0x0002, [], fun w => .cSlli (rdOf w) (cImm6 w)⟩,
    ⟨none, 0xE003, 0x4002, [(0x0F80, 0)], fun w => .cLwsp (rdOf w) (cUimmLwsp w)⟩,
    ⟨some .rv64, 0xE003, 0x6002, [(0x0F80, 0)], fun w => .cLdsp (rdOf w) (cUimmLdsp w)⟩,
    ⟨none, 0xF07F, 0x8002, [(0x0F80, 0)], fun w => .cJr (rdOf w)⟩,
    ⟨none, 0xF003, 0x8002, [(0x007C, 0)], fun w => .cMv (rdOf w) (cRs2 w)⟩,
    ⟨none, 0xFFFF, 0x9002, [], fun _ => .cEbreak⟩,
    ⟨none, 0xF07F, 0x9002, [(0x0F80, 0)], fun w => .cJalr (rdOf w)⟩,
    ⟨none, 0xF003, 0x9002, [(0x007C, 0)], fun w => .cAdd (rdOf w) (cRs2 w)⟩,
    ⟨none, 0xE003, 0xC002, [], fun w => .cSwsp (cRs2 w) (cUimmSwsp w)⟩,
    ⟨some .rv64, 0xE003, 0xE002, [], fun w => .cSdsp (cRs2 w) (cUimmSdsp w)⟩ ]

/-- The opcode table: every row of spec/opcode_table.json with its match, mask and "unknown_when". -/
def rows : List Row :=
  rowsUpper ++ rowsControl ++ rowsLoadStore ++ rowsOpImm ++ rowsOp ++ rowsWord ++
  rowsMulDiv ++ rowsAtomicW ++ rowsAtomicD ++ rowsSystem ++ rowsC0 ++ rowsC1 ++ rowsC2

/-! ### The decoder -/

/-- The word is a 16-bit form: bits [1:0] are not 0b11 (R140). -/
def isCompressedWord (w : BitVec 32) : Bool := w.extractLsb 1 0 != 3#2

/-- Why a word is no instruction: class Unknown (R150, R160), by its length. -/
inductive Reject where
  /-- a 16-bit form that matches no row of the current XLEN (R332): executed as a 2-byte NOP -/
  | unknownCompressed
  /-- a 32-bit word that matches no row of the current XLEN (R160): executed as a 4-byte NOP -/
  | unknownWord
  deriving DecidableEq, Repr

/-- The decoder (R141, R152, R153): the first row that accepts the word. It never fails otherwise than by naming the
Unknown class. -/
def decode (xl : XLen) (w : BitVec 32) : Except Reject Instr :=
  match rows.find? (fun r => r.accepts xl w) with
  | some r => .ok (r.build w)
  | none => .error (if isCompressedWord w then .unknownCompressed else .unknownWord)

/-! ### The encoder -/

def encR (f7 : BitVec 7) (rs2 rs1 : Reg) (f3 : BitVec 3) (rd : Reg) (op : BitVec 7) : BitVec 32 :=
  f7 ++ rs2 ++ rs1 ++ f3 ++ rd ++ op
def encI (imm : BitVec 12) (rs1 : Reg) (f3 : BitVec 3) (rd : Reg) (op : BitVec 7) : BitVec 32 :=
  imm ++ rs1 ++ f3 ++ rd ++ op
def encShift (f6 : BitVec 6) (shamt : BitVec 6) (rs1 : Reg) (f3 : BitVec 3) (rd : Reg) (op : BitVec 7) : BitVec 32 :=
  f6 ++ shamt ++ rs1 ++ f3 ++ rd ++ op
def encS (imm : BitVec 12) (rs2 rs1 : Reg) (f3 : BitVec 3) (op : BitVec 7) : BitVec 32 :=
  imm.extractLsb 11 5 ++ rs2 ++ rs1 ++ f3 ++ imm.extractLsb 4 0 ++ op
def encB (off : BitVec 13) (rs2 rs1 : Reg) (f3 : BitVec 3) (op : BitVec 7) : BitVec 32 :=
  off.extractLsb 12 12 ++ off.extractLsb 10 5 ++ rs2 ++ rs1 ++ f3 ++ off.extractLsb 4 1 ++ off.extractLsb 11 11 ++ op
def encU (imm20 : BitVec 20) (rd : Reg) (op : BitVec 7) : BitVec 32 := imm20 ++ rd ++ op
def encJ (off : BitVec 21) (rd : Reg) (op : BitVec 7) : BitVec 32 :=
  off.extractLsb 20 20 ++ off.extractLsb 10 1 ++ off.extractLsb 11 11 ++ off.extractLsb 19 12 ++ rd ++ op
def encAmo (f5 : BitVec 5) (aq rl : BitVec 1) (rs2 rs1 : Reg) (f3 : BitVec 3) (rd : Reg) (op : BitVec 7) : BitVec 32 :=
  f5 ++ aq ++ rl ++ rs2 ++ rs1 ++ f3 ++ rd ++ op

/-- A 16-bit instruction as a fetched word whose upper half is zero (R141). -/
def half (h : BitVec 16) : BitVec 32 := 0#16 ++ h
def encCI (f3 : BitVec 3) (imm : BitVec 6) (rd : Reg) (q : BitVec 2) : BitVec 16 :=
  f3 ++ imm.extractLsb 5 5 ++ rd ++ imm.extractLsb 4 0 ++ q
def encCL (f3 : BitVec 3) (imm : BitVec 5) (rs1 rd : CReg) (q : BitVec 2) : BitVec 16 :=
  f3 ++ imm.extractLsb 4 2 ++ rs1 ++ imm.extractLsb 1 0 ++ rd ++ q
def encCShift (f3 : BitVec 3) (f2 : BitVec 2) (imm : BitVec 6) (rd : CReg) (q : BitVec 2) : BitVec 16 :=
  f3 ++ imm.extractLsb 5 5 ++ f2 ++ rd ++ imm.extractLsb 4 0 ++ q
def encCBranch (f3 : BitVec 3) (off : BitVec 9) (rs1 : CReg) (q : BitVec 2) : BitVec 16 :=
  f3 ++ off.extractLsb 8 8 ++ off.extractLsb 4 3 ++ rs1 ++ off.extractLsb 7 6 ++ off.extractLsb 2 1 ++
    off.extractLsb 5 5 ++ q
/-- w[12:5] of C.ADDI4SPN (R333). -/
def encUimmAddi4spn (u : BitVec 10) : BitVec 8 :=
  u.extractLsb 5 4 ++ u.extractLsb 9 6 ++ u.extractLsb 2 2 ++ u.extractLsb 3 3
/-- w[12:10] then w[6:5] of C.LW and C.SW (R334). -/
def encUimmW (u : BitVec 7) : BitVec 5 := u.extractLsb 5 3 ++ u.extractLsb 2 2 ++ u.extractLsb 6 6
/-- w[12:10] then w[6:5] of C.LD and C.SD (R335). -/
def encUimmD (u : BitVec 8) : BitVec 5 := u.extractLsb 5 3 ++ u.extractLsb 7 6
/-- w[12:2] of C.J and C.JAL (R340). -/
def encOffJ (off : BitVec 12) : BitVec 11 :=
  off.extractLsb 11 11 ++ off.extractLsb 4 4 ++ off.extractLsb 9 8 ++ off.extractLsb 10 10 ++ off.extractLsb 6 6 ++
    off.extractLsb 7 7 ++ off.extractLsb 3 1 ++ off.extractLsb 5 5
/-- w[12] then w[6:2] of C.ADDI16SP (R343). -/
def encImm16sp (imm : BitVec 10) : BitVec 6 :=
  imm.extractLsb 9 9 ++ imm.extractLsb 4 4 ++ imm.extractLsb 6 6 ++ imm.extractLsb 8 7 ++ imm.extractLsb 5 5
/-- w[12] then w[6:2] of C.LWSP (R358). -/
def encUlwsp (u : BitVec 8) : BitVec 6 := u.extractLsb 5 5 ++ u.extractLsb 4 2 ++ u.extractLsb 7 6
/-- w[12] then w[6:2] of C.LDSP (R359). -/
def encUldsp (u : BitVec 9) : BitVec 6 := u.extractLsb 5 5 ++ u.extractLsb 4 3 ++ u.extractLsb 8 6
/-- w[12:7] of C.SWSP (R365). -/
def encUswsp (u : BitVec 8) : BitVec 6 := u.extractLsb 5 2 ++ u.extractLsb 7 6
/-- w[12:7] of C.SDSP (R366). -/
def encUsdsp (u : BitVec 9) : BitVec 6 := u.extractLsb 5 3 ++ u.extractLsb 8 6

/-- The word of an instruction; a compressed one stands in the low half. -/
def encode : Instr → BitVec 32
  | .lui rd imm20 => encU imm20 rd 55#7
  | .auipc rd imm20 => encU imm20 rd 23#7
  | .jal rd off => encJ off rd 111#7
  | .jalr rd rs1 imm => encI imm rs1 0#3 rd 103#7
  | .beq rs1 rs2 off => encB off rs2 rs1 0#3 99#7
  | .bne rs1 rs2 off => encB off rs2 rs1 1#3 99#7
  | .blt rs1 rs2 off => encB off rs2 rs1 4#3 99#7
  | .bge rs1 rs2 off => encB off rs2 rs1 5#3 99#7
  | .bltu rs1 rs2 off => encB off rs2 rs1 6#3 99#7
  | .bgeu rs1 rs2 off => encB off rs2 rs1 7#3 99#7
  | .lb rd rs1 imm => encI imm rs1 0#3 rd 3#7
  | .lh rd rs1 imm => encI imm rs1 1#3 rd 3#7
  | .lw rd rs1 imm => encI imm rs1 2#3 rd 3#7
  | .ld rd rs1 imm => encI imm rs1 3#3 rd 3#7
  | .lbu rd rs1 imm => encI imm rs1 4#3 rd 3#7
  | .lhu rd rs1 imm => encI imm rs1 5#3 rd 3#7
  | .lwu rd rs1 imm => encI imm rs1 6#3 rd 3#7
  | .sb rs1 rs2 imm => encS imm rs2 rs1 0#3 35#7
  | .sh rs1 rs2 imm => encS imm rs2 rs1 1#3 35#7
  | .sw rs1 rs2 imm => encS imm rs2 rs1 2#3 35#7
  | .sd rs1 rs2 imm => encS imm rs2 rs1 3#3 35#7
  | .addi rd rs1 imm => encI imm rs1 0#3 rd 19#7
  | .slti rd rs1 imm => encI imm rs1 2#3 rd 19#7
  | .sltiu rd rs1 imm => encI imm rs1 3#3 rd 19#7
  | .xori rd rs1 imm => encI imm rs1 4#3 rd 19#7
  | .ori rd rs1 imm => encI imm rs1 6#3 rd 19#7
  | .andi rd rs1 imm => encI imm rs1 7#3 rd 19#7
  | .slli rd rs1 shamt => encShift 0#6 shamt rs1 1#3 rd 19#7
  | .srli rd rs1 shamt => encShift 0#6 shamt rs1 5#3 rd 19#7
  | .srai rd rs1 shamt => encShift 16#6 shamt rs1 5#3 rd 19#7
  | .add rd rs1 rs2 => encR 0#7 rs2 rs1 0#3 rd 51#7
  | .sub rd rs1 rs2 => encR 32#7 rs2 rs1 0#3 rd 51#7
  | .sll rd rs1 rs2 => encR 0#7 rs2 rs1 1#3 rd 51#7
  | .slt rd rs1 rs2 => encR 0#7 rs2 rs1 2#3 rd 51#7
  | .sltu rd rs1 rs2 => encR 0#7 rs2 rs1 3#3 rd 51#7
  | .xor rd rs1 rs2 => encR 0#7 rs2 rs1 4#3 rd 51#7
  | .srl rd rs1 rs2 => encR 0#7 rs2 rs1 5#3 rd 51#7
  | .sra rd rs1 rs2 => encR 32#7 rs2 rs1 5#3 rd 51#7
  | .or rd rs1 rs2 => encR 0#7 rs2 rs1 6#3 rd 51#7
  | .and rd rs1 rs2 => encR 0#7 rs2 rs1 7#3 rd 51#7
  | .addiw rd rs1 imm => encI imm rs1 0#3 rd 27#7
  | .slliw rd rs1 shamt => encR 0#7 shamt rs1 1#3 rd 27#7
  | .srliw rd rs1 shamt => encR 0#7 shamt rs1 5#3 rd 27#7
  | .sraiw rd rs1 shamt => encR 32#7 shamt rs1 5#3 rd 27#7
  | .addw rd rs1 rs2 => encR 0#7 rs2 rs1 0#3 rd 59#7
  | .subw rd rs1 rs2 => encR 32#7 rs2 rs1 0#3 rd 59#7
  | .sllw rd rs1 rs2 => encR 0#7 rs2 rs1 1#3 rd 59#7
  | .srlw rd rs1 rs2 => encR 0#7 rs2 rs1 5#3 rd 59#7
  | .sraw rd rs1 rs2 => encR 32#7 rs2 rs1 5#3 rd 59#7
  | .mul rd rs1 rs2 => encR 1#7 rs2 rs1 0#3 rd 51#7
  | .mulh rd rs1 rs2 => encR 1#7 rs2 rs1 1#3 rd 51#7
  | .mulhsu rd rs1 rs2 => encR 1#7 rs2 rs1 2#3 rd 51#7
  | .mulhu rd rs1 rs2 => encR 1#7 rs2 rs1 3#3 rd 51#7
  | .div rd rs1 rs2 => encR 1#7 rs2 rs1 4#3 rd 51#7
  | .divu rd rs1 rs2 => encR 1#7 rs2 rs1 5#3 rd 51#7
  | .rem rd rs1 rs2 => encR 1#7 rs2 rs1 6#3 rd 51#7
  | .remu rd rs1 rs2 => encR 1#7 rs2 rs1 7#3 rd 51#7
  | .mulw rd rs1 rs2 => encR 1#7 rs2 rs1 0#3 rd 59#7
  | .divw rd rs1 rs2 => encR 1#7 rs2 rs1 4#3 rd 59#7
  | .divuw rd rs1 rs2 => encR 1#7 rs2 rs1 5#3 rd 59#7
  | .remw rd rs1 rs2 => encR 1#7 rs2 rs1 6#3 rd 59#7
  | .remuw rd rs1 rs2 => encR 1#7 rs2 rs1 7#3 rd 59#7
  | .lrW aq rl rd rs1 => encAmo 2#5 aq rl 0#5 rs1 2#3 rd 47#7
  | .scW aq rl rd rs1 rs2 => encAmo 3#5 aq rl rs2 rs1 2#3 rd 47#7
  | .amoswapW aq rl rd rs1 rs2 => encAmo 1#5 aq rl rs2 rs1 2#3 rd 47#7
  | .amoaddW aq rl rd rs1 rs2 => encAmo 0#5 aq rl rs2 rs1 2#3 rd 47#7
  | .amoxorW aq rl rd rs1 rs2 => encAmo 4#5 aq rl rs2 rs1 2#3 rd 47#7
  | .amoandW aq rl rd rs1 rs2 => encAmo 12#5 aq rl rs2 rs1 2#3 rd 47#7
  | .amoorW aq rl rd rs1 rs2 => encAmo 8#5 aq rl rs2 rs1 2#3 rd 47#7
  | .amominW aq rl rd rs1 rs2 => encAmo 16#5 aq rl rs2 rs1 2#3 rd 47#7
  | .amomaxW aq rl rd rs1 rs2 => encAmo 20#5 aq rl rs2 rs1 2#3 rd 47#7
  | .amominuW aq rl rd rs1 rs2 => encAmo 24#5 aq rl rs2 rs1 2#3 rd 47#7
  | .amomaxuW aq rl rd rs1 rs2 => encAmo 28#5 aq rl rs2 rs1 2#3 rd 47#7
  | .lrD aq rl rd rs1 => encAmo 2#5 aq rl 0#5 rs1 3#3 rd 47#7
  | .scD aq rl rd rs1 rs2 => encAmo 3#5 aq rl rs2 rs1 3#3 rd 47#7
  | .amoswapD aq rl rd rs1 rs2 => encAmo 1#5 aq rl rs2 rs1 3#3 rd 47#7
  | .amoaddD aq rl rd rs1 rs2 => encAmo 0#5 aq rl rs2 rs1 3#3 rd 47#7
  | .amoxorD aq rl rd rs1 rs2 => encAmo 4#5 aq rl rs2 rs1 3#3 rd 47#7
  | .amoandD aq rl rd rs1 rs2 => encAmo 12#5 aq rl rs2 rs1 3#3 rd 47#7
  | .amoorD aq rl rd rs1 rs2 => encAmo 8#5 aq rl rs2 rs1 3#3 rd 47#7
  | .amominD aq rl rd rs1 rs2 => encAmo 16#5 aq rl rs2 rs1 3#3 rd 47#7
  | .amomaxD aq rl rd rs1 rs2 => encAmo 20#5 aq rl rs2 rs1 3#3 rd 47#7
  | .amominuD aq rl rd rs1 rs2 => encAmo 24#5 aq rl rs2 rs1 3#3 rd 47#7
  | .amomaxuD aq rl rd rs1 rs2 => encAmo 28#5 aq rl rs2 rs1 3#3 rd 47#7
  | .csrrw rd csr rs1 => encI csr rs1 1#3 rd 115#7
  | .csrrs rd csr rs1 => encI csr rs1 2#3 rd 115#7
  | .csrrc rd csr rs1 => encI csr rs1 3#3 rd 115#7
  | .csrrwi rd csr uimm => encI csr uimm 5#3 rd 115#7
  | .csrrsi rd csr uimm => encI csr uimm 6#3 rd 115#7
  | .csrrci rd csr uimm => encI csr uimm 7#3 rd 115#7
  | .ecall => 0x00000073#32
  | .ebreak => 0x00100073#32
  | .mret => 0x30200073#32
  | .wfi => 0x10500073#32
  | .fence fm pred succ rs1 rd => encI (fm ++ pred ++ succ) rs1 0#3 rd 15#7
  | .fenceI imm rs1 rd => encI imm rs1 1#3 rd 15#7
  | .cAddi4spn rd uimm => half (0#3 ++ encUimmAddi4spn uimm ++ rd ++ 0#2)
  | .cLw rd rs1 uimm => half (encCL 2#3 (encUimmW uimm) rs1 rd 0#2)
  | .cLd rd rs1 uimm => half (encCL 3#3 (encUimmD uimm) rs1 rd 0#2)
  | .cSw rs1 rs2 uimm => half (encCL 6#3 (encUimmW uimm) rs1 rs2 0#2)
  | .cSd rs1 rs2 uimm => half (encCL 7#3 (encUimmD uimm) rs1 rs2 0#2)
  | .cNop imm => half (encCI 0#3 imm 0#5 1#2)
  | .cAddi rd imm => half (encCI 0#3 imm rd 1#2)
  | .cJal off => half (1#3 ++ encOffJ off ++ 1#2)
  | .cAddiw rd imm => half (encCI 1#3 imm rd 1#2)
  | .cLi rd imm => half (encCI 2#3 imm rd 1#2)
  | .cAddi16sp imm => half (encCI 3#3 (encImm16sp imm) 2#5 1#2)
  | .cLui rd imm => half (encCI 3#3 imm rd 1#2)
  | .cSrli rd shamt => half (encCShift 4#3 0#2 shamt rd 1#2)
  | .cSrai rd shamt => half (encCShift 4#3 1#2 shamt rd 1#2)
  | .cAndi rd imm => half (encCShift 4#3 2#2 imm rd 1#2)
  | .cSub rd rs2 => half (35#6 ++ rd ++ 0#2 ++ rs2 ++ 1#2)
  | .cXor rd rs2 => half (35#6 ++ rd ++ 1#2 ++ rs2 ++ 1#2)
  | .cOr rd rs2 => half (35#6 ++ rd ++ 2#2 ++ rs2 ++ 1#2)
  | .cAnd rd rs2 => half (35#6 ++ rd ++ 3#2 ++ rs2 ++ 1#2)
  | .cSubw rd rs2 => half (39#6 ++ rd ++ 0#2 ++ rs2 ++ 1#2)
  | .cAddw rd rs2 => half (39#6 ++ rd ++ 1#2 ++ rs2 ++ 1#2)
  | .cJ off => half (5#3 ++ encOffJ off ++ 1#2)
  | .cBeqz rs1 off => half (encCBranch 6#3 off rs1 1#2)
  | .cBnez rs1 off => half (encCBranch 7#3 off rs1 1#2)
  | .cSlli rd shamt => half (encCI 0#3 shamt rd 2#2)
  | .cLwsp rd uimm => half (encCI 2#3 (encUlwsp uimm) rd 2#2)
  | .cLdsp rd uimm => half (encCI 3#3 (encUldsp uimm) rd 2#2)
  | .cJr rs1 => half (8#4 ++ rs1 ++ 0#5 ++ 2#2)
  | .cMv rd rs2 => half (8#4 ++ rd ++ rs2 ++ 2#2)
  | .cEbreak => half 0x9002#16
  | .cJalr rs1 => half (9#4 ++ rs1 ++ 0#5 ++ 2#2)
  | .cAdd rd rs2 => half (9#4 ++ rd ++ rs2 ++ 2#2)
  | .cSwsp rs2 uimm => half (6#3 ++ encUswsp uimm ++ rs2 ++ 2#2)
  | .cSdsp rs2 uimm => half (7#3 ++ encUsdsp uimm ++ rs2 ++ 2#2)

/-! ### The numbering of spec/opcode_table.json -/

/-- The fetched word of an instruction whose table bits are w: the bits above nbits are 0. -/
def tableWord (nbits w : Nat) : BitVec 32 := BitVec.ofNat 32 (w % 2 ^ nbits)

/-- The XLEN at which a table word is read: RV64 where it has a row there, else RV32. (C.JAL and C.ADDIW have the same
match and mask; a word with rd = 0 is only C.JAL.) -/
def tableXLen (nbits w : Nat) : XLen :=
  match decode .rv64 (tableWord nbits w) with
  | .ok _ => .rv64
  | .error _ => .rv32

/-- The instruction the decoder reads from a word of the opcode table. -/
def decodeTableWord (nbits w : Nat) : Option Instr :=
  match decode (tableXLen nbits w) (tableWord nbits w) with
  | .ok i => some i
  | .error _ => none

end Sys2Proof
end

