-- ==== Sys2Proof/Machine/Params.lean ====
section
/-! DEFINITION. The parameter values of the machine that `State.reset` builds: the defaults of rule R9, and a value named in
assumption log entry 2 for each parameter the spec leaves OPEN. -/

namespace Sys2Proof.Machine

/-- R9's defaults. PIPE has no default in R9; MEM_BASE, MEM_SIZE, IRQ_CAUSE, ENTRY_PC and PLIC_NSRC are OPEN
(D3, D7, D22, D28). DESIGN CHOICE for those six, entry 2; and for
`oldWordAfterStore`, entry 23. Statements quantify over every configuration. -/
def defaultConfig : Config where
  xlen := .rv32
  pipe := .twoStage
  robN := 32
  sbM := 8
  clkPeriod := 10
  mtimeTick := 1000
  memLatency := 0
  irqLatency := 2
  dmiEnabled := true
  tohostAddr := 0x80001000
  memBase := 0x10001000
  memSize := 0x0FFFF000
  irqCause := 11
  entryPc := 0x10001000
  plicNsrc := 32
  irqGateMie := false
  oldWordAfterStore := false
  unbound := []
  maxInstr := none

end Sys2Proof.Machine
end

