-- ==== Sys2Proof/Machine/State.lean ====
section
/-! DEFINITION. Everything the machine holds, as plain data (10_state.md, R30 to R70), and its value after reset (R70, R470). -/

namespace Sys2Proof.Machine

/-! ### Run outcomes (R23) -/

/-- The forms the spec refuses to give a meaning (R24, R410). -/
inductive RefusedForm where
  /-- R110 -/
  | unsupportedDeviceAccess (addr : Word)
  /-- R107 -/
  | fetchFromDevice (pc : Word)
  /-- R134 -/
  | dmaToDevice (addr : Word)
  /-- R519 -/
  | compressed (pc : Word)
  deriving DecidableEq, Repr

/-- `Fatal(kind, info)` (R16, R410). -/
inductive FatalKind where
  | busError (addr : Word)
  | fetchError (pc : Word)
  | refused (form : RefusedForm)
  deriving DecidableEq, Repr

/-- How a run ends (R23). -/
inductive RunOutcome where
  | stopped (code : Word)
  | fatal (kind : FatalKind)
  | halted
  | hostStopped
  deriving DecidableEq, Repr

/-! ### The instruction record and the latches (R150, R55, R56) -/

/-- R150. -/
inductive InstrClass where
  | baseI
  | compressed
  | muldiv
  | atomic
  | system
  | unknown
  deriving DecidableEq, Repr

/-- The decoder's instruction record (R150, R151), with the decoded instruction as `op` (none: class Unknown). -/
structure Record where
  word : BitVec 32
  pc : Word
  cls : InstrClass
  rd : Reg
  rs1 : Reg
  rs2 : Reg
  funct3 : BitVec 3
  funct7 : BitVec 7
  opcode : BitVec 7
  imm : Word
  op : Option Instr
  deriving DecidableEq, Repr

/-- A fetched word: the latches of the 2-stage pipeline (R55) and L2 (R56). -/
structure FetchLatch where
  valid : Bool
  pc : Word
  word : BitVec 32
  deriving DecidableEq, Repr

/-- L1, PCGen to IF (R56). -/
structure PcLatch where
  valid : Bool
  pc : Word
  deriving DecidableEq, Repr

/-- L3, ID to IS (R56). -/
structure RecordLatch where
  valid : Bool
  record : Record
  deriving DecidableEq, Repr

/-- L4, IS to EX (R56). -/
structure IssueLatch where
  valid : Bool
  pc : Word
  op : Option Instr
  rd : Reg
  rs1Val : Word
  rs2Val : Word
  robIndex : Nat
  deriving DecidableEq, Repr

/-! A bubble is a latch with `valid` false (R20, R55, R56). The spec gives its other fields no value, at reset or after a flush,
a stall or an interrupt entry; 0 (and for an instruction none) is the model's. DESIGN CHOICE, entry 21. -/

/-- A bubble; pc and word are the model's choice, entry 21. -/
def FetchLatch.bubble : FetchLatch := ⟨false, 0, 0⟩
/-- A bubble; pc is the model's choice, entry 21. -/
def PcLatch.bubble : PcLatch := ⟨false, 0⟩
/-- The record of a bubble: every field is the model's choice, entry 21. -/
def Record.blank : Record := ⟨0, 0, .unknown, 0, 0, 0, 0, 0, 0, 0, none⟩
/-- A bubble; the record is the model's choice, entry 21. -/
def RecordLatch.bubble : RecordLatch := ⟨false, Record.blank⟩
/-- A bubble; every field but `valid` is the model's choice, entry 21. -/
def IssueLatch.bubble : IssueLatch := ⟨false, 0, none, 0, 0, 0, 0⟩

/-- The 2-stage pipeline's registers (R55, R485). -/
structure TwoStage where
  pc : Word
  latch : FetchLatch
  latchNext : FetchLatch
  flush : Bool
  deriving DecidableEq, Repr

/-- The four stage-to-stage latches of the 6-stage pipeline (R56). -/
structure SixLatches where
  l1 : PcLatch
  l2 : FetchLatch
  l3 : RecordLatch
  l4 : IssueLatch
  deriving DecidableEq, Repr

/-- Four bubbles (R523); their other fields as entry 21 says. -/
def SixLatches.bubbles : SixLatches := ⟨.bubble, .bubble, .bubble, .bubble⟩

/-- A reorder-buffer entry (R57). -/
structure RobEntry where
  valid : Bool
  ready : Bool
  destReg : Reg
  result : Word
  isStore : Bool
  isBranch : Bool
  exception : Option RunOutcome
  pc : Word
  deriving DecidableEq, Repr

/-- An invalid entry (R57). The spec gives only that it is invalid; the other fields are the model's. DESIGN CHOICE, entry 21. -/
def RobEntry.empty : RobEntry := ⟨false, false, 0, 0, false, false, none, 0⟩

/-- A store-buffer entry (R58). -/
structure SbEntry where
  valid : Bool
  address : Word
  data : Word
  size : Nat
  robIndex : Nat
  deriving DecidableEq, Repr

/-- The 6-stage pipeline's registers (R56 to R58). Each latch exists as `_reg` (`reg`) and `_next` (`next`). The scoreboard
(R59) is a function of the reorder buffer (R516) and has no field of its own. -/
structure SixStage where
  pcgenPc : Word
  reg : SixLatches
  next : SixLatches
  rob : List RobEntry
  head : Nat
  tail : Nat
  count : Nat
  sb : List SbEntry
  deriving DecidableEq, Repr

/-! ### Architectural state besides the registers -/

/-- The control and status registers (R40 to R52): a field for each named address of R41, and the other addresses
(plain storage, R42) as a list of (address, value) pairs, addresses rising and no value 0. -/
structure CsrFile where
  mstatus : Word
  misa : Word
  mie : Word
  mtvec : Word
  mscratch : Word
  mepc : Word
  mcause : Word
  mtval : Word
  mip : Word
  mhartid : Word
  mcycle : Word
  minstret : Word
  mcycleh : Word
  minstreth : Word
  cycle : Word
  time : Word
  instret : Word
  cycleh : Word
  timeh : Word
  instreth : Word
  other : List (Nat × Word)
  deriving DecidableEq, Repr

/-- The LR/SC reservation: an address and a size in bytes (R63, R300). -/
structure Reservation where
  addr : Word
  size : Nat
  deriving DecidableEq, Repr

/-- Interrupt-delivery state (R61). -/
structure IrqState where
  entered : Bool
  stall : Nat
  drain : Bool
  deriving DecidableEq, Repr

/-- The pipelines' statistics counters, unbounded naturals (R60, R492, R524). -/
structure Stats where
  cycles : Nat
  stalls : Nat
  issueStalls : Nat
  flushes : Nat
  controlHazards : Nat
  retired : Nat
  deriving DecidableEq, Repr

/-- The DMI descriptor on the instruction initiator (R62, R91): a pointer into the backing store, as the byte offset it
points at, and the address range [start, end) it covers. -/
structure DmiDescriptor where
  pointer : Nat
  startAddr : Nat
  endAddr : Nat
  readOk : Bool
  writeOk : Bool
  latency : Nat
  deriving DecidableEq, Repr

/-! ### Platform state reached through the bus (R65 to R69) -/

/-- Main memory (R65): (address, byte) pairs, addresses strictly rising, and no byte equal to what an unlisted address
reads as (Machine/Memory.lean). -/
abbrev Memory := List Host.Cell

/-- The timer (R66): the register pair and, the model's own, the number of ticks the timer agent has performed (R454). -/
structure Timer where
  mtime : BitVec 64
  mtimecmp : BitVec 64
  ticks : Nat
  deriving DecidableEq, Repr

/-- A bit vector of the PLIC by source id (R67): word k holds sources 32k to 32k+31 (R455; at most 1024 sources). -/
abbrev SourceBits := Vector (BitVec 32) 32

/-- The PLIC (R67, R455): priority by source id, pending and enable bit vectors, threshold, the last claimed id. -/
structure Plic where
  priority : List (BitVec 32)
  pending : SourceBits
  enable : SourceBits
  threshold : BitVec 32
  claimed : Nat
  deriving DecidableEq, Repr

/-- The DMA engine (R68, R127 to R133): its registers, `in_flight`, the latched parameters of the transfer in flight, and
the buffer its Read filled (none: the Read is still to come). The fabric's `dma_in_flight` (R64, R95) is `inFlight`. -/
structure Dma where
  src : BitVec 32
  dst : BitVec 32
  len : BitVec 32
  control : BitVec 32
  inFlight : Bool
  xferSrc : BitVec 32
  xferDst : BitVec 32
  xferLen : BitVec 32
  buffer : Option (List Byte)
  deriving DecidableEq, Repr

/-- The syscall hook's recorded words (R69, R462). -/
structure SyscallHook where
  syscallNum : BitVec 32
  arg : BitVec 32
  charOut : BitVec 32
  deriving DecidableEq, Repr

/-! ### The model's own fields -/

/-- The executor's result record (R19) of the instruction at EX: `pc_changed` and `branch_target_opt` as one optional target,
`breakpoint`, and `r.stop` of R502, the outcome a stopping instruction asks for. The pipeline reads it in the same
cycle, so it is empty at every cycle boundary of a run that goes on. -/
structure ExecResult where
  target : Option Word
  breakpoint : Bool
  stop : Option RunOutcome
  deriving DecidableEq, Repr

def ExecResult.none : ExecResult := ⟨.none, false, .none⟩

/-- What an agent other than the core may do at a boundary between two cycles (R8, R481): the timer performs a tick that is
due by the next cycle's time (R454), the DMA engine performs its next step (R131, R132), the host stops the run (R414). -/
inductive AgentEvent where
  | tick
  | dma
  | hostStop
  deriving DecidableEq, Repr

/-! ### The state -/

structure State where
  /-- the parameters of R9; no step changes them -/
  cfg : Config
  /-- x0 to x31 (R30); the slot of x0 is never written (R31) -/
  regs : Vector Word 32
  csr : CsrFile
  reservation : Option Reservation
  two : TwoStage
  six : SixStage
  irq : IrqState
  stats : Stats
  /-- the cached DMI descriptor (R62) -/
  dmi : Option DmiDescriptor
  /-- an invalidation has been broadcast and not yet delivered (R93, R481) -/
  dmiInvalidate : Bool
  mem : Memory
  timer : Timer
  plic : Plic
  dma : Dma
  /-- the trace stream, oldest byte first (R69) -/
  trace : List Byte
  /-- the UART stream, oldest byte first (R69) -/
  uart : List Byte
  hook : SyscallHook
  /-- the executor's result record (R19), the model's own field -/
  ex : ExecResult
  /-- the run's outcome; the end-of-simulation flag and its code are `some (.stopped code)` (R64) -/
  outcome : Option RunOutcome
  /-- how many free values the run has drawn, the model's own field (assumption log entry 3) -/
  draws : Nat
  /-- the free choices of the boundaries to come: what the other agents do at each, in order. The model's own field
  (assumption log entry 4) -/
  schedule : List (List AgentEvent)
  deriving DecidableEq, Repr

/-! ### Reset (R70, R470) -/

def CsrFile.reset : CsrFile where
  mstatus := 0
  misa := 0
  mie := 0
  mtvec := 0
  mscratch := 0
  mepc := 0
  mcause := 0
  mtval := 0
  mip := 0
  mhartid := 0
  mcycle := 0
  minstret := 0
  mcycleh := 0
  minstreth := 0
  cycle := 0
  time := 0
  instret := 0
  cycleh := 0
  timeh := 0
  instreth := 0
  other := []

/-- The machine right after reset (R70, R470) with the parameters `cfg`, the reset draws `regs` of the registers (R33), the
loaded image `mem` (R472) and the free choices `schedule` to come. The fields of the invalid latches and ROB entries but for
`valid` (R55 to R57), and the DMA engine's latched parameters and buffer (R130; R68 gives none), are the model's. DESIGN CHOICE,
entries 21 and 22. -/
def State.powerOn (cfg : Config) (regs : Vector Word 32) (mem : Memory) (schedule : List (List AgentEvent)) : State where
  cfg := cfg
  regs := regs
  csr := CsrFile.reset
  reservation := none
  two := ⟨cfg.entryPc, .bubble, .bubble, false⟩
  six := ⟨cfg.entryPc, .bubbles, .bubbles, List.replicate cfg.robN RobEntry.empty, 0, 0, 0, []⟩
  irq := ⟨false, 0, false⟩
  stats := ⟨0, 0, 0, 0, 0, 0⟩
  dmi := none
  dmiInvalidate := false
  mem := mem
  timer := ⟨0, 0xFFFFFFFFFFFFFFFF, 0⟩
  plic := ⟨List.replicate cfg.plicNsrc 0, Vector.replicate 32 0, Vector.replicate 32 0, 0, 0⟩
  dma := ⟨0, 0, 0, 0, false, 0, 0, 0, none⟩
  trace := []
  uart := []
  hook := ⟨0, 0, 0⟩
  ex := ExecResult.none
  outcome := none
  draws := 0
  schedule := schedule

/-- The machine right after reset: the parameters of Machine/Params.lean, x1 to x31 at 0 (DESIGN CHOICE, entry 1: the spec
gives each an unspecified value), memory with nothing listed and no free choice fixed in advance. -/
def State.reset : State := State.powerOn defaultConfig (Vector.replicate 32 0) [] []

/-! ### How a step can stop -/

/-- The machine stops. Each fault of a run carries the machine as it stood at that moment (R415), its `outcome` set. -/
inductive Fault where
  /-- `Fatal(BusError, addr)`: a load, store, AMO, LR, SC or ECALL-write access whose bus status is not OK (R412). Raised by
  the data accesses of EX and Commit. Safe: the spec ends the run here. -/
  | busError (addr : Word) (final : State)
  /-- `Fatal(FetchError, pc)`: a fetch whose bus status is not OK (R411). Raised by the fetch stages. Safe. -/
  | fetchError (pc : Word) (final : State)
  /-- The run has already ended with this outcome and no agent steps any more (R23, R415). Raised by `step`. Safe. -/
  | runEnded (outcome : RunOutcome)
  deriving DecidableEq, Repr

/-- No meaning: the spec's `Fatal(Refused, …)` (R24), with the machine as it stood at that moment. -/
inductive Refusal where
  /-- The instruction has no meaning in this model. Raised by `exec` only. Safe. -/
  | notModelled (mnemonic : String)
  /-- `Fatal(Refused, UnsupportedDeviceAccess)` (R110). Raised by the data accesses of EX and Commit. Safe. -/
  | unsupportedDeviceAccess (addr : Word) (final : State)
  /-- `Fatal(Refused, FetchFromDevice)` (R107). Raised by the fetch stages. Safe. -/
  | fetchFromDevice (pc : Word) (final : State)
  /-- `Fatal(Refused, DmaToDevice)` (R134). Raised by the DMA agent between cycles. Safe. -/
  | dmaToDevice (addr : Word) (final : State)
  /-- `Fatal(Refused, Compressed)` (R519). Raised by EX of the 6-stage pipeline. Safe. -/
  | compressed (pc : Word) (final : State)
  deriving DecidableEq, Repr

end Sys2Proof.Machine
end

