-- ==== Sys2Proof/Machine/Memory.lean ====
section
/-! DEFINITION. Sparse storage in one canonical form, main memory as bytes, and the little-endian byte order (R65, R90, R103). -/

namespace Sys2Proof.Machine

/-! ### A sparse table: keys strictly rising, no value 0; an unlisted key holds 0 -/

def sparseGet {n : Nat} : List (Nat × BitVec n) → Nat → BitVec n
  | [], _ => 0
  | (a, v) :: rest, k => if a = k then v else sparseGet rest k

/-- Put `v` before the entries of `rest`, unless it is the value an unlisted key holds. -/
def sparseCons {n : Nat} (k : Nat) (v : BitVec n) (rest : List (Nat × BitVec n)) : List (Nat × BitVec n) :=
  if v = 0 then rest else (k, v) :: rest

def sparseSet {n : Nat} : List (Nat × BitVec n) → Nat → BitVec n → List (Nat × BitVec n)
  | [], k, v => sparseCons k v []
  | (a, w) :: rest, k, v =>
    if k < a then sparseCons k v ((a, w) :: rest)
    else if k = a then sparseCons k v rest
    else (a, w) :: sparseSet rest k v

/-- Every key of the table is above `lo`, the keys rise strictly, and no value is 0. -/
def sparseAbove {n : Nat} (lo : Nat) : List (Nat × BitVec n) → Bool
  | [] => true
  | (a, v) :: rest => decide (lo < a) && decide (v ≠ 0) && sparseAbove a rest

/-- The canonical form. -/
def sparseWf {n : Nat} : List (Nat × BitVec n) → Bool
  | [] => true
  | (a, v) :: rest => decide (v ≠ 0) && sparseAbove a rest

/-! ### Main memory -/

/-- The canonical form of main memory: addresses strictly rising, and no byte equal to 0, what an unlisted address reads
as. DESIGN CHOICE, entry 6: the spec gives a byte the image does not write an unspecified value (R65). -/
def Memory.wf (m : Memory) : Bool := sparseWf m

/-- The byte at an address (R90). -/
def Memory.byte (m : Memory) (a : Nat) : Byte := sparseGet m a

def Memory.setByte (m : Memory) (a : Nat) (b : Byte) : Memory := sparseSet m a b

/-- The address `i` bytes above `a`, modulo 2^XLEN (R36, R80). -/
def addrAt (xl : XLen) (a : Word) (i : Nat) : Nat := (a.toNat + i) % 2 ^ xl.bits

/-- The `n` bytes at `a`, lowest address first. -/
def Memory.readBytes (xl : XLen) (m : Memory) (a : Word) (n : Nat) : List Byte :=
  (List.range n).map fun i => m.byte (addrAt xl a i)

/-- Write bytes at `a + i`, `a + i + 1`, … -/
def Memory.writeFrom (xl : XLen) (m : Memory) (a : Word) : Nat → List Byte → Memory
  | _, [] => m
  | i, b :: bs => (m.setByte (addrAt xl a i) b).writeFrom xl a (i + 1) bs

/-- The bytes written at `a`, lowest address first. -/
def Memory.writeBytes (xl : XLen) (m : Memory) (a : Word) (bs : List Byte) : Memory := m.writeFrom xl a 0 bs

/-! ### Byte order (R103): little-endian -/

/-- The low `n` bytes of a value, least significant first. -/
def leBytes : Nat → Word → List Byte
  | 0, _ => []
  | n + 1, v => v.setWidth 8 :: leBytes n (v >>> 8)

/-- The zero-extended value of bytes given least significant first (R101). -/
def leValue : List Byte → Word
  | [] => 0
  | b :: bs => b.setWidth 64 ||| (leValue bs <<< 8)

end Sys2Proof.Machine
end

