-- ==== Sys2Proof/Machine/Csr.lean ====
section
/-! DEFINITION. The control and status registers (R40 to R52): addresses, fields, reading and writing. -/

namespace Sys2Proof.Machine

/-- The named addresses of R41. -/
inductive CsrName where
  | mstatus
  | misa
  | mie
  | mtvec
  | mscratch
  | mepc
  | mcause
  | mtval
  | mip
  | mhartid
  | mcycle
  | minstret
  | mcycleh
  | minstreth
  | cycle
  | time
  | instret
  | cycleh
  | timeh
  | instreth
  deriving DecidableEq, Repr

/-- The address of each name (R41). -/
def CsrName.addr : CsrName → CsrAddr
  | .mstatus => 0x300
  | .misa => 0x301
  | .mie => 0x304
  | .mtvec => 0x305
  | .mscratch => 0x340
  | .mepc => 0x341
  | .mcause => 0x342
  | .mtval => 0x343
  | .mip => 0x344
  | .mhartid => 0xF14
  | .mcycle => 0xB00
  | .minstret => 0xB02
  | .mcycleh => 0xB80
  | .minstreth => 0xB82
  | .cycle => 0xC00
  | .time => 0xC01
  | .instret => 0xC02
  | .cycleh => 0xC80
  | .timeh => 0xC81
  | .instreth => 0xC82

def csrNames : List CsrName :=
  [.mstatus, .misa, .mie, .mtvec, .mscratch, .mepc, .mcause, .mtval, .mip, .mhartid, .mcycle, .minstret, .mcycleh,
    .minstreth, .cycle, .time, .instret, .cycleh, .timeh, .instreth]

/-- The name at an address; none for the plain storage of R42. -/
def csrName (a : CsrAddr) : Option CsrName := csrNames.find? fun n => n.addr == a

/-- The counters of R41 and R52. The upper halves exist in RV32 only; in RV64 their addresses are plain storage (R42). -/
def CsrName.isCounter (xl : XLen) : CsrName → Bool
  | .mcycle | .minstret | .cycle | .time | .instret => true
  | .mcycleh | .minstreth | .cycleh | .timeh | .instreth => xl == .rv32
  | .mstatus | .misa | .mie | .mtvec | .mscratch | .mepc | .mcause | .mtval | .mip | .mhartid => false

def CsrFile.named (f : CsrFile) : CsrName → Word
  | .mstatus => f.mstatus
  | .misa => f.misa
  | .mie => f.mie
  | .mtvec => f.mtvec
  | .mscratch => f.mscratch
  | .mepc => f.mepc
  | .mcause => f.mcause
  | .mtval => f.mtval
  | .mip => f.mip
  | .mhartid => f.mhartid
  | .mcycle => f.mcycle
  | .minstret => f.minstret
  | .mcycleh => f.mcycleh
  | .minstreth => f.minstreth
  | .cycle => f.cycle
  | .time => f.time
  | .instret => f.instret
  | .cycleh => f.cycleh
  | .timeh => f.timeh
  | .instreth => f.instreth

def CsrFile.setNamed (f : CsrFile) (v : Word) : CsrName → CsrFile
  | .mstatus => { f with mstatus := v }
  | .misa => { f with misa := v }
  | .mie => { f with mie := v }
  | .mtvec => { f with mtvec := v }
  | .mscratch => { f with mscratch := v }
  | .mepc => { f with mepc := v }
  | .mcause => { f with mcause := v }
  | .mtval => { f with mtval := v }
  | .mip => { f with mip := v }
  | .mhartid => { f with mhartid := v }
  | .mcycle => { f with mcycle := v }
  | .minstret => { f with minstret := v }
  | .mcycleh => { f with mcycleh := v }
  | .minstreth => { f with minstreth := v }
  | .cycle => { f with cycle := v }
  | .time => { f with time := v }
  | .instret => { f with instret := v }
  | .cycleh => { f with cycleh := v }
  | .timeh => { f with timeh := v }
  | .instreth => { f with instreth := v }

/-- The stored value at an address (R42). -/
def CsrFile.get (f : CsrFile) (a : CsrAddr) : Word :=
  match csrName a with
  | some n => f.named n
  | none => sparseGet f.other a.toNat

/-- Storing a value at an address: no field is filtered (R43). -/
def CsrFile.set (f : CsrFile) (a : CsrAddr) (v : Word) : CsrFile :=
  match csrName a with
  | some n => f.setNamed v n
  | none => { f with other := sparseSet f.other a.toNat v }

/-- Whether an address is a counter of the current XLEN (R52). -/
def isCounter (xl : XLen) (a : CsrAddr) : Bool :=
  match csrName a with
  | some n => n.isCounter xl
  | none => false

/-- `csr[a]` (R14, R391): the stored value, or a draw for a counter (R52). -/
def State.readCsr (a : CsrAddr) (s : State) : Word × State :=
  if isCounter s.cfg.xlen a then (s.cfg.xlen.wrap (Config.draw s.draws), { s with draws := s.draws + 1 })
  else (s.csr.get a, s)

/-- `csr[a] <- v` (R43). -/
def State.writeCsr (a : CsrAddr) (v : Word) (s : State) : State :=
  { s with csr := s.csr.set a (s.cfg.xlen.wrap v) }

/-! ### Fields with a hardware meaning (R44 to R46) -/

/-- `mstatus.MIE`, bit 3 (R44). -/
def mieBit : Word := 0x8

/-- `mie.MTIE`, bit 7 (R45). -/
def mtieBit : Word := 0x80

/-- `mip.MEIP`, bit 11 (R46). -/
def meipBit : Word := 0x800

def State.mie (s : State) : Bool := s.csr.mstatus &&& mieBit != 0
def State.mtie (s : State) : Bool := s.csr.mie &&& mtieBit != 0
def State.meip (s : State) : Bool := s.csr.mip &&& meipBit != 0

end Sys2Proof.Machine
end

