-- ==== Sys2Proof/Machine/Arith.lean ====
section
/-! DEFINITION. The arithmetic of the instructions at any width n (R180 to R213, R275 to R290, R307 to R326), and its use at
XLEN bits and on the low 32 bits. -/

namespace Sys2Proof.Machine

/-- A binary operation on XLEN-bit values (R10, R13). -/
def atXLen (xl : XLen) (f : (n : Nat) → BitVec n → BitVec n → BitVec n) (a b : Word) : Word :=
  (f xl.bits (a.setWidth xl.bits) (b.setWidth xl.bits)).setWidth 64

/-- A binary operation on the low 32 bits, its result sign-extended (R182). -/
def atWord (xl : XLen) (f : (n : Nat) → BitVec n → BitVec n → BitVec n) (a b : Word) : Word :=
  xl.sext (f 32 (a.setWidth 32) (b.setWidth 32))

def opAdd (n : Nat) (a b : BitVec n) : BitVec n := a + b
def opSub (n : Nat) (a b : BitVec n) : BitVec n := a - b
def opXor (n : Nat) (a b : BitVec n) : BitVec n := a ^^^ b
def opOr (n : Nat) (a b : BitVec n) : BitVec n := a ||| b
def opAnd (n : Nat) (a b : BitVec n) : BitVec n := a &&& b

/-- Shift amounts are masked to log2 of the width, 5 bits at width 32 and 6 at width 64 (R181). -/
def shiftAmount (n : Nat) (b : BitVec n) : Nat := b.toNat % n

def opSll (n : Nat) (a b : BitVec n) : BitVec n := a <<< shiftAmount n b
def opSrl (n : Nat) (a b : BitVec n) : BitVec n := a >>> shiftAmount n b
def opSra (n : Nat) (a b : BitVec n) : BitVec n := a.sshiftRight (shiftAmount n b)

/-- SLT and SLTU (R197, R198). -/
def opSlt (n : Nat) (a b : BitVec n) : BitVec n := if a.toInt < b.toInt then 1 else 0
def opSltu (n : Nat) (a b : BitVec n) : BitVec n := if a.toNat < b.toNat then 1 else 0

/-! ### Multiply and divide -/

def opMul (n : Nat) (a b : BitVec n) : BitVec n := a * b

/-- The upper n bits of a 2n-bit product (R276). -/
def upperHalf (n : Nat) (p : Int) : BitVec n := (BitVec.ofInt (2 * n) p).extractLsb' n n

def opMulh (n : Nat) (a b : BitVec n) : BitVec n := upperHalf n (a.toInt * b.toInt)
def opMulhsu (n : Nat) (a b : BitVec n) : BitVec n := upperHalf n (a.toInt * b.toNat)
def opMulhu (n : Nat) (a b : BitVec n) : BitVec n := upperHalf n (a.toNat * b.toNat)

/-- `quot_s`: signed division rounded toward zero (R276). -/
def quotS (n : Nat) (a b : BitVec n) : Int := a.toInt.tdiv b.toInt

/-- MIN divided by -1, the one quotient outside the range (R281). -/
def divOverflows (n : Nat) (a b : BitVec n) : Bool := a == BitVec.intMin n && b == BitVec.allOnes n

/-- R281. -/
def opDiv (n : Nat) (a b : BitVec n) : BitVec n :=
  if b = 0 then BitVec.allOnes n
  else if divOverflows n a b then BitVec.intMin n
  else BitVec.ofInt n (quotS n a b)

/-- R282. -/
def opDivu (n : Nat) (a b : BitVec n) : BitVec n :=
  if b = 0 then BitVec.allOnes n else BitVec.ofNat n (a.toNat / b.toNat)

/-- R283; the remainder is `a - b * quot_s` (R276). -/
def opRem (n : Nat) (a b : BitVec n) : BitVec n :=
  if b = 0 then a
  else if divOverflows n a b then 0
  else BitVec.ofInt n (a.toInt - b.toInt * quotS n a b)

/-- R284. -/
def opRemu (n : Nat) (a b : BitVec n) : BitVec n := if b = 0 then a else BitVec.ofNat n (a.toNat % b.toNat)

/-! ### The operations of the AMOs: memory value t, register value s (R307 to R326) -/

def opSwap (n : Nat) (_ s : BitVec n) : BitVec n := s
def opMin (n : Nat) (t s : BitVec n) : BitVec n := if t.toInt < s.toInt then t else s
def opMax (n : Nat) (t s : BitVec n) : BitVec n := if t.toInt > s.toInt then t else s
def opMinu (n : Nat) (t s : BitVec n) : BitVec n := if t.toNat < s.toNat then t else s
def opMaxu (n : Nat) (t s : BitVec n) : BitVec n := if t.toNat > s.toNat then t else s

end Sys2Proof.Machine
end

