-- ==== Sys2Proof/Machine/Flags.lean ====
section
/-! DEFINITION. The hardware has no flags (R39): a comparison is consumed by the branch that computes it. The six conditions
of the branches on XLEN-bit values (R244 to R249). -/

namespace Sys2Proof.Machine

/-- The XLEN-bit value read as a signed integer (R13). -/
def signed (xl : XLen) (v : Word) : Int := (v.setWidth xl.bits).toInt

/-- The XLEN-bit value read as an unsigned integer (R13). -/
def unsigned (xl : XLen) (v : Word) : Nat := (v.setWidth xl.bits).toNat

def condEq (xl : XLen) (a b : Word) : Bool := unsigned xl a == unsigned xl b
def condNe (xl : XLen) (a b : Word) : Bool := unsigned xl a != unsigned xl b
def condLt (xl : XLen) (a b : Word) : Bool := decide (signed xl a < signed xl b)
def condGe (xl : XLen) (a b : Word) : Bool := decide (signed xl a ≥ signed xl b)
def condLtu (xl : XLen) (a b : Word) : Bool := decide (unsigned xl a < unsigned xl b)
def condGeu (xl : XLen) (a b : Word) : Bool := decide (unsigned xl a ≥ unsigned xl b)

end Sys2Proof.Machine
end

