-- ==== Sys2Proof/Machine/Operands.lean ====
section
/-! DEFINITION. Every operand form: registers, the executing instruction's pc and source values, immediates, addresses
(R14, R31, R34, R143, R255, R331, R502). -/

namespace Sys2Proof.Machine

/-! ### General registers (R30, R31) -/

/-- `x[r]`: x0 reads as 0. -/
def State.x (r : Reg) (s : State) : Word := if r = 0 then 0 else s.regs[r.toNat]

/-- `x[r] <- v`: a write of x0 is ignored; a register holds XLEN bits. -/
def State.setX (r : Reg) (v : Word) (s : State) : State :=
  if r = 0 then s else { s with regs := s.regs.set r.toNat (s.cfg.xlen.wrap v) }

/-- The register x(8 + r') of a primed field (R145, R331). -/
def creg (r : CReg) : Reg := 8 + r.setWidth 5

/-- x2, the stack pointer of the compressed forms (R333, R358). -/
def sp : Reg := 2

/-- x1, the link register of C.JAL and C.JALR (R340, R363). -/
def ra : Reg := 1

/-! ### The instruction at EX -/

/-- `pc`, the address the executing instruction was fetched from (R34): the `pc` field of the latch EX reads. -/
def State.instrPc (s : State) : Word :=
  match s.cfg.pipe with
  | .twoStage => s.two.latch.pc
  | .sixStage => s.six.reg.l4.pc

/-- The value of source register rs1: the register file at EX in the 2-stage pipeline (R491), the value IS read into L4 in
the 6-stage pipeline (R502). -/
def State.src1 (r : Reg) (s : State) : Word :=
  match s.cfg.pipe with
  | .twoStage => s.x r
  | .sixStage => s.six.reg.l4.rs1Val

/-- The value of source register rs2, likewise. -/
def State.src2 (r : Reg) (s : State) : Word :=
  match s.cfg.pipe with
  | .twoStage => s.x r
  | .sixStage => s.six.reg.l4.rs2Val

/-! ### Immediates and addresses (R143) -/

/-- The 32-bit upper immediate, sign-extended (R143). -/
def upperImm (xl : XLen) (imm20 : BitVec 20) : Word := xl.sext (imm20 ++ 0#12)

/-- The immediate of C.LUI: bits [17:12], sign-extended from bit 17 (R344). -/
def cUpperImm (xl : XLen) (imm6 : BitVec 6) : Word := xl.sext (imm6 ++ 0#12)

/-- An effective address or a branch target: base plus displacement, modulo 2^XLEN (R36, R255). -/
def addOffset (xl : XLen) (base off : Word) : Word := atXLen xl opAdd base off

/-- The value with bit 0 cleared (R37). -/
def clearBit0 (v : Word) : Word := v &&& ~~~1

/-- The value with bits [1:0] cleared (R50). -/
def clearBits10 (v : Word) : Word := v &&& ~~~3

end Sys2Proof.Machine
end

