-- ==== Sys2Proof/Machine/Devices.lean ====
section
/-! DEFINITION. The platform devices as bus targets: the accesses each supports and their effects (R127 to R130, R450 to
R463). An access a device does not list is unsupported (R110). -/

namespace Sys2Proof.Machine

/-- What a device answers. -/
inductive DevReply where
  /-- status OK; the data of a Read (0 for a Write) -/
  | ok (data : Word) (s : State)
  /-- End-Of-Simulation was raised (R463) -/
  | eos (s : State)
  /-- R110 -/
  | unsupported
  deriving DecidableEq, Repr

/-! ### Run outcomes -/

/-- The run ends with `o`; the first outcome raised stays (R415). -/
def State.withOutcome (o : RunOutcome) (s : State) : State :=
  { s with outcome := some (s.outcome.getD o) }

/-! ### Timer (R450 to R453) -/

/-- The IRQ line: a level, `mtime ≥ mtimecmp` unsigned (R420, R453). -/
def State.irqLine (s : State) : Bool := decide (s.timer.mtimecmp.toNat ≤ s.timer.mtime.toNat)

def lowHalf (v : BitVec 64) : BitVec 32 := v.setWidth 32
def highHalf (v : BitVec 64) : BitVec 32 := (v >>> 32).setWidth 32
def setLowHalf (v : BitVec 64) (w : Word) : BitVec 64 := highHalf v ++ w.setWidth 32
def setHighHalf (v : BitVec 64) (w : Word) : BitVec 64 := w.setWidth 32 ++ lowHalf v

/-- A part of a 64-bit timer register that an access names. -/
inductive TimerPart where
  | low
  | high
  | whole
  deriving DecidableEq, Repr

/-- The two registers of the timer (R450). -/
inductive TimerReg where
  | mtime
  | mtimecmp
  deriving DecidableEq, Repr

def Timer.get (t : Timer) : TimerReg → BitVec 64
  | .mtime => t.mtime
  | .mtimecmp => t.mtimecmp

def Timer.set (t : Timer) (v : BitVec 64) : TimerReg → Timer
  | .mtime => { t with mtime := v }
  | .mtimecmp => { t with mtimecmp := v }

def partOf (v : BitVec 64) : TimerPart → Word
  | .low => (lowHalf v).setWidth 64
  | .high => (highHalf v).setWidth 64
  | .whole => v

def setPart (v : BitVec 64) (w : Word) : TimerPart → BitVec 64
  | .low => setLowHalf v w
  | .high => setHighHalf v w
  | .whole => w

/-- The register and part at an offset of the CLINT, for an access of `len` bytes (R451). -/
def clintPort (off len : Nat) : Option (TimerReg × TimerPart) :=
  match off, len with
  | 0x4000, 4 => some (.mtimecmp, .low)
  | 0x4004, 4 => some (.mtimecmp, .high)
  | 0x4000, 8 => some (.mtimecmp, .whole)
  | 0xBFF8, 4 => some (.mtime, .low)
  | 0xBFFC, 4 => some (.mtime, .high)
  | 0xBFF8, 8 => some (.mtime, .whole)
  | _, _ => none

/-- The register and part at an offset of the legacy timer (R452). -/
def legacyTimerPort (off len : Nat) : Option (TimerReg × TimerPart) :=
  match off, len with
  | 0x0, 4 => some (.mtime, .low)
  | 0x4, 4 => some (.mtime, .high)
  | 0x8, 4 => some (.mtimecmp, .low)
  | 0xC, 4 => some (.mtimecmp, .high)
  | _, _ => none

def timerRead (port : Option (TimerReg × TimerPart)) (s : State) : DevReply :=
  match port with
  | some (r, p) => .ok (partOf (s.timer.get r) p) s
  | none => .unsupported

def timerWrite (port : Option (TimerReg × TimerPart)) (v : Word) (s : State) : DevReply :=
  match port with
  | some (r, p) => .ok 0 { s with timer := s.timer.set (setPart (s.timer.get r) v p) r }
  | none => .unsupported

/-! ### PLIC (R455 to R459) -/

/-- The registers of the PLIC (R455). -/
inductive PlicPort where
  | priority (id : Nat)
  | pending (k : Nat)
  | enable (k : Nat)
  | threshold
  | claimComplete
  deriving DecidableEq, Repr

/-- The register at an offset, for an access of `len` bytes with `nsrc` sources (R455). -/
def plicPort (nsrc off len : Nat) : Option PlicPort :=
  if len = 4 ∧ off % 4 = 0 then
    if off < 0x1000 ∧ off / 4 < nsrc then some (.priority (off / 4))
    else if 0x1000 ≤ off ∧ off < 0x2000 ∧ 32 * (off % 0x1000 / 4) < nsrc then some (.pending (off % 0x1000 / 4))
    else if 0x2000 ≤ off ∧ off < 0x3000 ∧ 32 * (off % 0x1000 / 4) < nsrc then some (.enable (off % 0x1000 / 4))
    else if off = 0x200000 then some .threshold
    else if off = 0x200004 then some .claimComplete
    else none
  else none

/-- The bits of word `k` that are sources 1 to nsrc - 1: the others read 0 and ignore writes (R455). -/
def sourceMask (nsrc k : Nat) : BitVec 32 :=
  BitVec.ofNat 32 (2 ^ min 32 (nsrc - 32 * k) - 1) &&& (if k = 0 then ~~~1 else BitVec.allOnes 32)

/-- Word `k` of a bit vector of sources, bits 32k to 32k+31. -/
def sourceWord (bits : SourceBits) (k : Nat) : BitVec 32 := bits[k]?.getD 0

/-- The bit of source `id`. -/
def sourceBit (bits : SourceBits) (id : Nat) : Bool := (sourceWord bits (id / 32)).getLsbD (id % 32)

/-- A write of word `k` of a bit vector of sources (R455). -/
def setSourceWord (nsrc : Nat) (bits : SourceBits) (k : Nat) (v : BitVec 32) : SourceBits :=
  bits.setIfInBounds k (v &&& sourceMask nsrc k)

/-- The bits without source `id`. -/
def clearSource (bits : SourceBits) (id : Nat) : SourceBits :=
  bits.setIfInBounds (id / 32) (sourceWord bits (id / 32) &&& ~~~(1#32 <<< (id % 32)))

def Plic.prio (p : Plic) (id : Nat) : Nat := (p.priority.getD id 0).toNat

/-- A candidate of a claim (R457). -/
def Plic.isCandidate (p : Plic) (id : Nat) : Bool :=
  decide (1 ≤ id) && sourceBit p.pending id && sourceBit p.enable id && decide (p.threshold.toNat < p.prio id)

/-- The better of two candidates: the larger priority, ties to the smaller id, which is `a` (R457). -/
def Plic.better (p : Plic) (a : Option Nat) (id : Nat) : Option Nat :=
  match a with
  | none => some id
  | some best => if p.prio best < p.prio id then some id else some best

/-- The source a claim takes, none where there is no candidate (R457). -/
def Plic.best (nsrc : Nat) (p : Plic) : Option Nat :=
  ((List.range nsrc).filter p.isCandidate).foldl p.better none

/-- A claim: the id it returns and the registers after it (R457). -/
def Plic.claim (nsrc : Nat) (p : Plic) : Nat × Plic :=
  match p.best nsrc with
  | none => (0, p)
  | some id => (id, { p with pending := clearSource p.pending id, claimed := id })

/-- A completion of source `id` (R458). -/
def Plic.complete (nsrc : Nat) (p : Plic) (id : Nat) : Plic :=
  if 1 ≤ id ∧ id < nsrc then { p with pending := clearSource p.pending id } else p

def plicRead (port : Option PlicPort) (s : State) : DevReply :=
  match port with
  | some (.priority id) => .ok ((s.plic.priority.getD id 0).setWidth 64) s
  | some (.pending k) => .ok ((sourceWord s.plic.pending k).setWidth 64) s
  | some (.enable k) => .ok ((sourceWord s.plic.enable k).setWidth 64) s
  | some .threshold => .ok (s.plic.threshold.setWidth 64) s
  | some .claimComplete =>
    let r := s.plic.claim s.cfg.plicNsrc
    .ok (BitVec.ofNat 64 r.1) { s with plic := r.2 }
  | none => .unsupported

def plicWrite (port : Option PlicPort) (v : Word) (s : State) : DevReply :=
  let v32 : BitVec 32 := v.setWidth 32
  match port with
  | some (.priority id) => .ok 0 { s with plic := { s.plic with priority := s.plic.priority.set id v32 } }
  | some (.pending k) =>
    .ok 0 { s with plic := { s.plic with pending := setSourceWord s.cfg.plicNsrc s.plic.pending k v32 } }
  | some (.enable k) =>
    .ok 0 { s with plic := { s.plic with enable := setSourceWord s.cfg.plicNsrc s.plic.enable k v32 } }
  | some .threshold => .ok 0 { s with plic := { s.plic with threshold := v32 } }
  | some .claimComplete => .ok 0 { s with plic := s.plic.complete s.cfg.plicNsrc v32.toNat }
  | none => .unsupported

/-! ### DMA registers (R127 to R130) -/

/-- The registers of the DMA engine (R127). -/
inductive DmaPort where
  | src
  | dst
  | len
  | control
  deriving DecidableEq, Repr

def dmaPort (off len : Nat) : Option DmaPort :=
  match off, len with
  | 0x0, 4 => some .src
  | 0x4, 4 => some .dst
  | 0x8, 4 => some .len
  | 0xC, 4 => some .control
  | _, _ => none

/-- A Write to `control` (R130): while in flight it stores bits [31:1] only; otherwise it stores the value and, with bit 0
set, latches the parameters and starts the transfer. -/
def Dma.writeControl (d : Dma) (v : BitVec 32) : Dma :=
  if d.inFlight then { d with control := (v &&& ~~~1) ||| (d.control &&& 1) }
  else if v &&& 1 = 0 then { d with control := v }
  else { d with control := v, inFlight := true, xferSrc := d.src, xferDst := d.dst, xferLen := d.len, buffer := none }

def dmaRead (port : Option DmaPort) (s : State) : DevReply :=
  match port with
  | some .src => .ok (s.dma.src.setWidth 64) s
  | some .dst => .ok (s.dma.dst.setWidth 64) s
  | some .len => .ok (s.dma.len.setWidth 64) s
  | some .control => .ok (s.dma.control.setWidth 64) s
  | none => .unsupported

def dmaWrite (port : Option DmaPort) (v : Word) (s : State) : DevReply :=
  let v32 : BitVec 32 := v.setWidth 32
  match port with
  | some .src => .ok 0 { s with dma := { s.dma with src := v32 } }
  | some .dst => .ok 0 { s with dma := { s.dma with dst := v32 } }
  | some .len => .ok 0 { s with dma := { s.dma with len := v32 } }
  | some .control => .ok 0 { s with dma := s.dma.writeControl v32 }
  | none => .unsupported

/-! ### Byte sinks, syscall hook, legacy termination (R460 to R463) -/

/-- The supported accesses of the UART and the trace port: a Write of 1, 2 or 4 bytes at offset 0 (R460, R461). -/
def sinkPort (off len : Nat) : Bool := off == 0 && (len == 1 || len == 2 || len == 4)

/-- Append a byte to the trace stream (R461, R398). -/
def State.emitTrace (b : Byte) (s : State) : State := { s with trace := s.trace ++ [b] }

/-- Append a byte to the UART stream (R460). -/
def State.emitUart (b : Byte) (s : State) : State := { s with uart := s.uart ++ [b] }

def uartWrite (off len : Nat) (v : Word) (s : State) : DevReply :=
  if sinkPort off len then .ok 0 (s.emitUart (v.setWidth 8)) else .unsupported

def traceWrite (off len : Nat) (v : Word) (s : State) : DevReply :=
  if sinkPort off len then .ok 0 (s.emitTrace (v.setWidth 8)) else .unsupported

/-- The registers of the syscall hook (R462). -/
inductive HookPort where
  | syscallNum
  | arg
  | charOut
  | status
  deriving DecidableEq, Repr

def hookPort (off len : Nat) : Option HookPort :=
  match off, len with
  | 0x0, 4 => some .syscallNum
  | 0x4, 4 => some .arg
  | 0x8, 4 => some .charOut
  | 0xC, 4 => some .status
  | _, _ => none

/-- A Read of the hook; `status` returns a draw of 4 bytes (R462). -/
def hookRead (port : Option HookPort) (s : State) : DevReply :=
  match port with
  | some .syscallNum => .ok (s.hook.syscallNum.setWidth 64) s
  | some .arg => .ok (s.hook.arg.setWidth 64) s
  | some .charOut => .ok (s.hook.charOut.setWidth 64) s
  | some .status => .ok (((Config.draw s.draws).setWidth 32).setWidth 64) { s with draws := s.draws + 1 }
  | none => .unsupported

def hookWrite (port : Option HookPort) (v : Word) (s : State) : DevReply :=
  let v32 : BitVec 32 := v.setWidth 32
  match port with
  | some .syscallNum => .ok 0 { s with hook := { s.hook with syscallNum := v32 } }
  | some .arg => .ok 0 { s with hook := { s.hook with arg := v32 } }
  | some .charOut => .ok 0 { s with hook := { s.hook with charOut := v32 } }
  | some .status => .ok 0 s
  | none => .unsupported

/-- Any access at exactly 0x9000_0000 ends the run with code 0 (R463). -/
def legacyTermination (off : Nat) (s : State) : DevReply :=
  if off = 0 then .eos (s.withOutcome (.stopped 0)) else .unsupported

/-! ### Every target -/

/-- A Read of `len` bytes at offset `off` of a bound target. -/
def deviceRead (t : Target) (off len : Nat) (s : State) : DevReply :=
  match t with
  | .clint => timerRead (clintPort off len) s
  | .plic => plicRead (plicPort s.cfg.plicNsrc off len) s
  | .uart => .unsupported
  | .dma => dmaRead (dmaPort off len) s
  | .trace => .unsupported
  | .legacyTimer => timerRead (legacyTimerPort off len) s
  | .syscallHook => hookRead (hookPort off len) s
  | .legacyTermination => legacyTermination off s

/-- A Write of the low `len` bytes of `v` at offset `off` of a bound target. -/
def deviceWrite (t : Target) (off len : Nat) (v : Word) (s : State) : DevReply :=
  match t with
  | .clint => timerWrite (clintPort off len) v s
  | .plic => plicWrite (plicPort s.cfg.plicNsrc off len) v s
  | .uart => uartWrite off len v s
  | .dma => dmaWrite (dmaPort off len) v s
  | .trace => traceWrite off len v s
  | .legacyTimer => timerWrite (legacyTimerPort off len) v s
  | .syscallHook => hookWrite (hookPort off len) v s
  | .legacyTermination => legacyTermination off s

end Sys2Proof.Machine
end

