-- ==== Sys2Proof/Machine/Bus.lean ====
section
/-! DEFINITION. The bus fabric: transactions, the address map, demultiplexing, main memory and the DMI descriptor (R80 to
R94). -/

namespace Sys2Proof.Machine

inductive Cmd where
  | read
  | write
  deriving DecidableEq, Repr

/-- The three masters (R81). -/
inductive Initiator where
  | instruction
  | data
  | dma
  deriving DecidableEq, Repr

/-- A transaction (R80); `bytes` is the data of a Write, lowest address first. -/
structure Tx where
  initiator : Initiator
  cmd : Cmd
  addr : Word
  len : Nat
  bytes : List Byte
  deriving DecidableEq, Repr

/-- How a transaction ends: status OK with the data of a Read, another status (R80), an End-Of-Simulation raised inside it
(R83, R463), or an access its target does not support (R110). -/
inductive BusReply where
  | ok (bytes : List Byte) (s : State)
  | addressError
  | burstError
  | eos (s : State)
  | unsupported
  deriving DecidableEq, Repr

/-! ### The address map (R84) -/

/-- The base of each target's range. -/
def targetBase : Target → Nat
  | .clint => 0x02000000
  | .plic => 0x0C000000
  | .uart => 0x10000000
  | .dma => 0x30000000
  | .trace => 0x40000000
  | .legacyTimer => 0x40004000
  | .syscallHook => 0x80000000
  | .legacyTermination => 0x90000000

/-- The size of each target's range in bytes. -/
def targetSize : Target → Nat
  | .clint => 0x10000
  | .plic => 0x400000
  | .uart => 0x100
  | .dma => 0x1000
  | .trace => 4
  | .legacyTimer => 16
  | .syscallHook => 0x1000
  | .legacyTermination => 4

/-- The targets in demultiplexing order. -/
def targets : List Target :=
  [.clint, .plic, .uart, .dma, .trace, .legacyTimer, .syscallHook, .legacyTermination]

def targetContains (t : Target) (a : Nat) : Bool := decide (targetBase t ≤ a) && decide (a < targetBase t + targetSize t)

/-- The first target whose range contains the address (R82 step 2). -/
def targetAt (a : Word) : Option Target := targets.find? fun t => targetContains t a.toNat

/-- The address lies in a device range or is `TOHOST_ADDR` (R107). -/
def isDeviceAddr (cfg : Config) (a : Word) : Bool := (targetAt a).isSome || a == cfg.tohostAddr

/-! ### Main memory as a target (R86, R88) -/

/-- The byte offset of an address in the window, modulo 2^XLEN (R86). -/
def memOffset (cfg : Config) (a : Word) : Nat := (atXLen cfg.xlen opSub a cfg.memBase).toNat

/-- `[addr, addr + len)` is inside the window (R88). -/
def inMainMemory (cfg : Config) (a : Word) (len : Nat) : Bool := decide (memOffset cfg a + len ≤ cfg.memSize)

/-- The lengths of the CPU's initiators (R88). -/
def burstOk (len : Nat) : Bool := len == 1 || len == 2 || len == 4 || len == 8

/-- Main memory's answer (R88). A Write broadcasts DMI invalidation (R93). -/
def mainMemoryAccess (tx : Tx) (s : State) : BusReply :=
  if !burstOk tx.len && tx.initiator != .dma then .burstError
  else if tx.len = 0 then .burstError
  else if !inMainMemory s.cfg tx.addr tx.len then .addressError
  else match tx.cmd with
    | .read => .ok (s.mem.readBytes s.cfg.xlen tx.addr tx.len) s
    | .write => .ok [] { s with mem := s.mem.writeBytes s.cfg.xlen tx.addr tx.bytes, dmiInvalidate := true }

/-! ### Demultiplexing (R82) -/

/-- A Write of `TOHOST_ADDR`: a non-zero value ends the run with it as code; 0 has no effect (R83). -/
def tohostWrite (v : Word) (s : State) : BusReply :=
  if v = 0 then .ok [] s else .eos (s.withOutcome (.stopped (s.cfg.xlen.wrap v)))

/-- An unbound target answers OK with no side effect; the data of a Read is a draw (R87). -/
def unboundAccess (tx : Tx) (s : State) : BusReply :=
  match tx.cmd with
  | .read => .ok (leBytes tx.len (Config.draw s.draws)) { s with draws := s.draws + 1 }
  | .write => .ok [] s

/-- A bound target's answer, at the offset of the address in its range. -/
def deviceAccess (t : Target) (tx : Tx) (s : State) : BusReply :=
  let off := (tx.addr - BitVec.ofNat 64 (targetBase t)).toNat
  let reply := match tx.cmd with
    | .read => deviceRead t off tx.len s
    | .write => deviceWrite t off tx.len (leValue tx.bytes) s
  match reply with
  | .ok v s' => .ok (match tx.cmd with | .read => leBytes tx.len v | .write => []) s'
  | .eos s' => .eos s'
  | .unsupported => .unsupported

/-- R82. The delay it returns is timing only and has no effect (R89), so it is not modelled. -/
def transport (tx : Tx) (s : State) : BusReply :=
  if tx.addr = s.cfg.tohostAddr ∧ tx.cmd = .write then tohostWrite (leValue tx.bytes) s
  else match targetAt tx.addr with
    | some t => if t ∈ s.cfg.unbound then unboundAccess tx s else deviceAccess t tx s
    | none => mainMemoryAccess tx s

/-! ### The DMI fast path of the instruction initiator (R91 to R94) -/

/-- The descriptor memory's DMI provider grants: the whole window, readable and writable (R91). -/
def dmiGrant (cfg : Config) : DmiDescriptor where
  pointer := 0
  startAddr := cfg.memBase.toNat
  endAddr := cfg.memBase.toNat + cfg.memSize
  readOk := true
  writeOk := true
  latency := cfg.memLatency

/-- `[pc, pc + 4)` may be read through the descriptor (R92). -/
def DmiDescriptor.covers (d : DmiDescriptor) (pc : Word) : Bool :=
  d.readOk && decide (d.startAddr ≤ pc.toNat) && decide (pc.toNat + 4 ≤ d.endAddr)

/-- Delivery of a broadcast invalidation: the cached descriptor is dropped (R93). -/
def State.deliverInvalidation (s : State) : State :=
  if s.dmiInvalidate then { s with dmi := none, dmiInvalidate := false } else s

/-- After a fetch by the bus, the descriptor requested for the next fetch (R92). It is granted unless DMI is disabled, by the
parameter or by an offset-loaded image (R91; `ImageState.config`). -/
def State.requestDmi (s : State) : State :=
  if s.cfg.dmiEnabled then { s with dmi := some (dmiGrant s.cfg) } else s

end Sys2Proof.Machine
end

