-- ==== Sys2Proof/Machine/Ops.lean ====
section
/-! DEFINITION. The shared operations of the instructions: results, data accesses (R15, R100, R255, R256, R301), control
transfers (R19), stops (R16, R399), interrupt entry (R423 to R426) and the return from it (R401). -/

namespace Sys2Proof.Machine

/-- The outcome of an instruction or a step. -/
abbrev Result := Host.Outcome State Fault Refusal

/-! ### Fatal outcomes (R16, R410) -/

def raiseBusError (a : Word) (s : State) : Result :=
  .fault (.busError a (s.withOutcome (.fatal (.busError a))))

def raiseFetchError (pc : Word) (s : State) : Result :=
  .fault (.fetchError pc (s.withOutcome (.fatal (.fetchError pc))))

def refuseDeviceAccess (a : Word) (s : State) : Result :=
  .refused (.unsupportedDeviceAccess a (s.withOutcome (.fatal (.refused (.unsupportedDeviceAccess a)))))

def refuseFetch (pc : Word) (s : State) : Result :=
  .refused (.fetchFromDevice pc (s.withOutcome (.fatal (.refused (.fetchFromDevice pc)))))

def refuseDma (a : Word) (s : State) : Result :=
  .refused (.dmaToDevice a (s.withOutcome (.fatal (.refused (.dmaToDevice a)))))

def refuseCompressed (pc : Word) (s : State) : Result :=
  .refused (.compressed pc (s.withOutcome (.fatal (.refused (.compressed pc)))))

/-! ### Data accesses -/

/-- What `MemRead` or `MemWrite` answers: it returns, or it does not and `Result` is the machine at that moment: the run
ended inside the access (R83, R463), or its status was not OK (R15), or its target refuses it (R110). -/
inductive Access (α : Type) where
  | ok (v : α) (s : State)
  | stopped (r : Result)

/-- Go on with the value and the state after an access; an access that does not return ends the instruction (R415). -/
def Access.andThen {α : Type} (m : Access α) (k : α → State → Result) : Result :=
  match m with
  | .ok v s => k v s
  | .stopped r => r

/-- A transaction of the data initiator: a status other than OK is fatal (R15, R100, R412). `s` is the state before it. -/
def dataAccess (tx : Tx) (s : State) : Access Word :=
  match transport tx s with
  | .ok bytes s' => .ok (leValue bytes) s'
  | .addressError => .stopped (raiseBusError tx.addr s)
  | .burstError => .stopped (raiseBusError tx.addr s)
  | .eos s' => .stopped (.next s')
  | .unsupported => .stopped (refuseDeviceAccess tx.addr s)

/-- `MemRead(a, n)`: the n bytes, zero-extended (R15, R101). -/
def memRead (a : Word) (n : Nat) (s : State) : Access Word := dataAccess ⟨.data, .read, a, n, []⟩ s

/-- `MemWrite(a, n, v)`: the low n bytes of v (R15, R101). -/
def memWrite (a : Word) (n : Nat) (v : Word) (s : State) : Access Word :=
  dataAccess ⟨.data, .write, a, n, leBytes n v⟩ s

/-- The 6-stage EX inserts a store into the store buffer (R512). The entry keeps the low n bytes of the value. A full
buffer cannot arise (R514); the list has no bound of its own (entry 13). -/
def enqueueStore (a : Word) (n : Nat) (v : Word) (s : State) : State :=
  { s with six := { s.six with sb := s.six.sb ++ [⟨true, a, leValue (leBytes n v), n, s.six.reg.l4.robIndex⟩] } }

/-- The Write of a store, an AMO or a successful SC: performed at EX in the 2-stage pipeline, placed in the store buffer in
the 6-stage pipeline (R256, R301). -/
def storeData (a : Word) (n : Nat) (v : Word) (s : State) : Access Word :=
  match s.cfg.pipe with
  | .twoStage => memWrite a n v s
  | .sixStage => .ok 0 (enqueueStore a n v s)

/-! ### Register results -/

/-- `rob[i].result <- v` (R502). -/
def setRobResult (i : Nat) (v : Word) (s : State) : State :=
  { s with six := { s.six with rob := s.six.rob.set i { s.six.rob.getD i .empty with result := v } } }

/-- `x[rd] <- v`: in the 2-stage pipeline the register file (R491), in the 6-stage pipeline the result in the executing
instruction's ROB entry, written at commit (R502, R515). -/
def State.writeDest (rd : Reg) (v : Word) (s : State) : State :=
  match s.cfg.pipe with
  | .twoStage => s.setX rd v
  | .sixStage => setRobResult s.six.reg.l4.robIndex (s.cfg.xlen.wrap v) s

/-- A failed SC has no store: in the 6-stage pipeline EX clears its ROB entry's `is_store` (R512). -/
def State.cancelStore (s : State) : State :=
  match s.cfg.pipe with
  | .twoStage => s
  | .sixStage =>
    let i := s.six.reg.l4.robIndex
    { s with six := { s.six with rob := s.six.rob.set i { s.six.rob.getD i .empty with isStore := false } } }

/-! ### Control transfers and stops (R16, R19) -/

/-- `pc <- target`: the executor reports `pc_changed` with the target; the pipeline redirects (R14, R489, R513). -/
def State.jumpTo (target : Word) (s : State) : State := { s with ex := { s.ex with target := some target } }

/-- A stopping instruction reports its outcome; the 2-stage EX raises it, the 6-stage EX records it in the ROB (R399). -/
def State.requestStop (o : RunOutcome) (s : State) : State := { s with ex := { s.ex with stop := some o } }

/-- `halt(Breakpoint)` with `breakpoint = true` (R19, R400). -/
def State.breakpoint (s : State) : State := { s with ex := { s.ex with breakpoint := true, stop := some .halted } }

/-- The link value: the address of the next sequential instruction (R18, R250, R330). -/
def State.linkValue (len : Word) (s : State) : Word := addOffset s.cfg.xlen s.instrPc len

/-! ### The shapes of instruction effects -/

/-- An instruction that computes one register result (R180). -/
def writeResult (rd : Reg) (v : Word) (s : State) : Result := .next (s.writeDest rd v)

/-- A binary operation on two registers (R180). -/
def regReg (f : (n : Nat) → BitVec n → BitVec n → BitVec n) (rd rs1 rs2 : Reg) (s : State) : Result :=
  writeResult rd (atXLen s.cfg.xlen f (s.src1 rs1) (s.src2 rs2)) s

/-- A binary operation on a register and an immediate (R180). -/
def regImm (f : (n : Nat) → BitVec n → BitVec n → BitVec n) (rd rs1 : Reg) (imm : Word) (s : State) : Result :=
  writeResult rd (atXLen s.cfg.xlen f (s.src1 rs1) imm) s

/-- A word operation on two registers (R182). -/
def regRegW (f : (n : Nat) → BitVec n → BitVec n → BitVec n) (rd rs1 rs2 : Reg) (s : State) : Result :=
  writeResult rd (atWord s.cfg.xlen f (s.src1 rs1) (s.src2 rs2)) s

/-- A word operation on a register and an immediate (R182). -/
def regImmW (f : (n : Nat) → BitVec n → BitVec n → BitVec n) (rd rs1 : Reg) (imm : Word) (s : State) : Result :=
  writeResult rd (atWord s.cfg.xlen f (s.src1 rs1) imm) s

/-- The condition of a branch on the values of its two registers. -/
def State.compare (cond : XLen → Word → Word → Bool) (rs1 rs2 : Reg) (s : State) : Bool :=
  cond s.cfg.xlen (s.src1 rs1) (s.src2 rs2)

/-- The effective address of a load or store: `x[rs1] + imm` (R255). -/
def State.ea (rs1 : Reg) (imm : Word) (s : State) : Word := addOffset s.cfg.xlen (s.src1 rs1) imm

/-- A conditional branch (R240). -/
def branchIf (cond : Bool) (off : Word) (s : State) : Result :=
  if cond then .next (s.jumpTo (addOffset s.cfg.xlen s.instrPc off)) else .next s

/-- A jump with link: rd receives the link value, the target was computed before (R250, R251). -/
def jumpLink (rd : Reg) (len target : Word) (s : State) : Result :=
  .next ((s.writeDest rd (s.linkValue len)).jumpTo target)

/-- The target of JALR: bit 0 cleared (R251). -/
def jalrTarget (xl : XLen) (base off : Word) : Word := clearBit0 (addOffset xl base off)

/-- A load of n bytes, its n·8-bit value extended to XLEN by `ext` (R255, R257). -/
def loadInto (rd : Reg) (ea : Word) (n : Nat) (ext : Word → Word) (s : State) : Result :=
  (memRead ea n s).andThen fun v s' => .next (s'.writeDest rd (ext v))

/-- A store of the low n bytes of v (R256). -/
def storeTo (ea : Word) (n : Nat) (v : Word) (s : State) : Result :=
  (storeData ea n v s).andThen fun _ s' => .next s'

/-- The extensions of a load (R101, R259 to R265). -/
def signExt (xl : XLen) (bits : Nat) (v : Word) : Word := xl.sext (v.setWidth bits)
def zeroExt (xl : XLen) (bits : Nat) (v : Word) : Word := xl.zext (v.setWidth bits)

/-! ### Atomics (R300 to R304) -/

def State.reserve (r : Option Reservation) (s : State) : State := { s with reservation := r }

/-- LR (R305, R316). -/
def loadReserved (rd : Reg) (a : Word) (n : Nat) (s : State) : Result :=
  (memRead a n s).andThen fun v s' => .next ((s'.writeDest rd (signExt s.cfg.xlen (8 * n) v)).reserve (some ⟨a, n⟩))

/-- SC (R306, R317). -/
def storeConditional (rd : Reg) (a : Word) (n : Nat) (v : Word) (s : State) : Result :=
  if s.reservation = some ⟨a, n⟩ then
    (storeData a n v s).andThen fun _ s' => .next ((s'.writeDest rd 0).reserve none)
  else .next ((s.cancelStore.writeDest rd 1).reserve none)

/-- The AMO template (R304): Read, Write of `op(t, s)`, and the old value sign-extended to rd. -/
def amo (rd : Reg) (a : Word) (n : Nat) (op : (n : Nat) → BitVec n → BitVec n → BitVec n) (src : Word) (s : State) : Result :=
  (memRead a n s).andThen fun t s' =>
    (storeData a n ((op (8 * n) (t.setWidth (8 * n)) (src.setWidth (8 * n))).setWidth 64) s').andThen fun _ s'' =>
      .next (s''.writeDest rd (signExt s.cfg.xlen (8 * n) t))

/-! ### CSR instructions (R391) -/

/-- Read the CSR, write `new old` where there is a write, and put the old value in rd. -/
def csrAccess (rd : Reg) (a : CsrAddr) (new : Word → Option Word) (s : State) : Result :=
  let r := s.readCsr a
  let s' := match new r.1 with
    | some v => r.2.writeCsr a v
    | none => r.2
  .next (s'.writeDest rd r.1)

/-! ### ECALL's write service (R398) -/

/-- Emit `len` bytes from `a + i`, each by a 1-byte data Read. A step of the loop that does not return ends it, with the
bytes before it emitted. -/
def emitBytes (a : Word) : Nat → Nat → State → Result
  | _, 0, s => .next s
  | i, len + 1, s =>
    (memRead (addOffset s.cfg.xlen a (BitVec.ofNat 64 i)) 1 s).andThen fun v s' =>
      emitBytes a (i + 1) len (s'.emitTrace (v.setWidth 8))

/-! ### Taking the interrupt (R421 to R426), the one trap -/

/-- The entry condition (R421). -/
def State.entryCondition (s : State) : Bool := s.irqLine && s.mie && !s.meip && (!s.cfg.irqGateMie || s.mtie)

/-- The precise pc (R426): the address of the oldest instruction that has not executed. -/
def State.precisePc (s : State) : Word :=
  match s.cfg.pipe with
  | .twoStage => if s.two.latchNext.valid then s.two.latchNext.pc else s.two.pc
  | .sixStage =>
    if s.six.reg.l3.valid then s.six.reg.l3.record.pc
    else if s.six.reg.l2.valid then s.six.reg.l2.pc
    else if s.six.reg.l1.valid then s.six.reg.l1.pc
    else s.six.pcgenPc

/-- `2^(XLEN-1) | IRQ_CAUSE` (R424). -/
def irqCauseValue (cfg : Config) : Word := cfg.xlen.wrap ((1 <<< (cfg.xlen.bits - 1)) ||| cfg.irqCause)

/-- The pipeline's part of an entry: the fetch PC at the handler, every latch a bubble, `flush` and `irq_drain` clear (R425,
R493, R523). -/
def State.redirectPipeline (target : Word) (s : State) : State :=
  match s.cfg.pipe with
  | .twoStage => { s with two := ⟨target, .bubble, .bubble, false⟩ }
  | .sixStage => { s with
      six := { s.six with pcgenPc := target, reg := .bubbles, next := .bubbles }
      irq := { s.irq with drain := false } }

/-- Interrupt entry (R423 to R425), atomically: `mip[11] <- 1`, `mepc` and `mcause` saved, the fetch PC at `mtvec & ~3`, the
latches bubbles, the flush counted, and the latency billed. `mstatus` is not changed (R424). -/
def enterInterrupt (s : State) : State :=
  let csr := { s.csr with
    mip := s.csr.mip ||| meipBit
    mepc := s.precisePc
    mcause := irqCauseValue s.cfg }
  let s' := s.redirectPipeline (clearBits10 s.csr.mtvec)
  { s' with
    csr := csr
    irq := { s'.irq with entered := true, stall := s.cfg.irqLatency }
    stats := { s.stats with flushes := s.stats.flushes + 1 } }

/-- MRET (R401): `mstatus.MIE <- 1`, and a taken redirect to `mepc & ~1`; nothing else. -/
def returnFromTrap (s : State) : State :=
  { s with csr := { s.csr with mstatus := s.csr.mstatus ||| mieBit } }.jumpTo (clearBit0 s.csr.mepc)

end Sys2Proof.Machine
end

