-- ==== Sys2Proof/Machine/Atomic.lean ====
section
/-! DEFINITION. Atomic memory operations (44_atomic.md, R300 to R326). -/

namespace Sys2Proof.Machine

/-- LR.W (R305); aq and rl have no effect (R302) -/
def execLrW (_aq _rl : BitVec 1) (rd rs1 : Reg) (s : State) : Result := loadReserved rd (s.src1 rs1) 4 s

/-- SC.W (R306) -/
def execScW (_aq _rl : BitVec 1) (rd rs1 rs2 : Reg) (s : State) : Result :=
  storeConditional rd (s.src1 rs1) 4 (s.src2 rs2) s

/-- AMOSWAP.W (R307) -/
def execAmoswapW (_aq _rl : BitVec 1) (rd rs1 rs2 : Reg) (s : State) : Result :=
  amo rd (s.src1 rs1) 4 opSwap (s.src2 rs2) s

/-- AMOADD.W (R308) -/
def execAmoaddW (_aq _rl : BitVec 1) (rd rs1 rs2 : Reg) (s : State) : Result :=
  amo rd (s.src1 rs1) 4 opAdd (s.src2 rs2) s

/-- AMOXOR.W (R309) -/
def execAmoxorW (_aq _rl : BitVec 1) (rd rs1 rs2 : Reg) (s : State) : Result :=
  amo rd (s.src1 rs1) 4 opXor (s.src2 rs2) s

/-- AMOAND.W (R310) -/
def execAmoandW (_aq _rl : BitVec 1) (rd rs1 rs2 : Reg) (s : State) : Result :=
  amo rd (s.src1 rs1) 4 opAnd (s.src2 rs2) s

/-- AMOOR.W (R311) -/
def execAmoorW (_aq _rl : BitVec 1) (rd rs1 rs2 : Reg) (s : State) : Result :=
  amo rd (s.src1 rs1) 4 opOr (s.src2 rs2) s

/-- AMOMIN.W (R312) -/
def execAmominW (_aq _rl : BitVec 1) (rd rs1 rs2 : Reg) (s : State) : Result :=
  amo rd (s.src1 rs1) 4 opMin (s.src2 rs2) s

/-- AMOMAX.W (R313) -/
def execAmomaxW (_aq _rl : BitVec 1) (rd rs1 rs2 : Reg) (s : State) : Result :=
  amo rd (s.src1 rs1) 4 opMax (s.src2 rs2) s

/-- AMOMINU.W (R314) -/
def execAmominuW (_aq _rl : BitVec 1) (rd rs1 rs2 : Reg) (s : State) : Result :=
  amo rd (s.src1 rs1) 4 opMinu (s.src2 rs2) s

/-- AMOMAXU.W (R315) -/
def execAmomaxuW (_aq _rl : BitVec 1) (rd rs1 rs2 : Reg) (s : State) : Result :=
  amo rd (s.src1 rs1) 4 opMaxu (s.src2 rs2) s

/-- LR.D (R316); aq and rl have no effect (R302) -/
def execLrD (_aq _rl : BitVec 1) (rd rs1 : Reg) (s : State) : Result := loadReserved rd (s.src1 rs1) 8 s

/-- SC.D (R317) -/
def execScD (_aq _rl : BitVec 1) (rd rs1 rs2 : Reg) (s : State) : Result :=
  storeConditional rd (s.src1 rs1) 8 (s.src2 rs2) s

/-- AMOSWAP.D (R318) -/
def execAmoswapD (_aq _rl : BitVec 1) (rd rs1 rs2 : Reg) (s : State) : Result :=
  amo rd (s.src1 rs1) 8 opSwap (s.src2 rs2) s

/-- AMOADD.D (R319) -/
def execAmoaddD (_aq _rl : BitVec 1) (rd rs1 rs2 : Reg) (s : State) : Result :=
  amo rd (s.src1 rs1) 8 opAdd (s.src2 rs2) s

/-- AMOXOR.D (R320) -/
def execAmoxorD (_aq _rl : BitVec 1) (rd rs1 rs2 : Reg) (s : State) : Result :=
  amo rd (s.src1 rs1) 8 opXor (s.src2 rs2) s

/-- AMOAND.D (R321) -/
def execAmoandD (_aq _rl : BitVec 1) (rd rs1 rs2 : Reg) (s : State) : Result :=
  amo rd (s.src1 rs1) 8 opAnd (s.src2 rs2) s

/-- AMOOR.D (R322) -/
def execAmoorD (_aq _rl : BitVec 1) (rd rs1 rs2 : Reg) (s : State) : Result :=
  amo rd (s.src1 rs1) 8 opOr (s.src2 rs2) s

/-- AMOMIN.D (R323) -/
def execAmominD (_aq _rl : BitVec 1) (rd rs1 rs2 : Reg) (s : State) : Result :=
  amo rd (s.src1 rs1) 8 opMin (s.src2 rs2) s

/-- AMOMAX.D (R324) -/
def execAmomaxD (_aq _rl : BitVec 1) (rd rs1 rs2 : Reg) (s : State) : Result :=
  amo rd (s.src1 rs1) 8 opMax (s.src2 rs2) s

/-- AMOMINU.D (R325) -/
def execAmominuD (_aq _rl : BitVec 1) (rd rs1 rs2 : Reg) (s : State) : Result :=
  amo rd (s.src1 rs1) 8 opMinu (s.src2 rs2) s

/-- AMOMAXU.D (R326) -/
def execAmomaxuD (_aq _rl : BitVec 1) (rd rs1 rs2 : Reg) (s : State) : Result :=
  amo rd (s.src1 rs1) 8 opMaxu (s.src2 rs2) s

end Sys2Proof.Machine
end

