-- ==== Sys2Proof/Machine/Compressed.lean ====
section
/-! DEFINITION. Compressed instructions (45_compressed.md, R330 to R367): each executes as its 32-bit expansion; a link register receives
pc + 2. -/

namespace Sys2Proof.Machine

/-- C.ADDI4SPN (R333): addi rd', x2, nzuimm -/
def execCAddi4spn (rd : CReg) (uimm : BitVec 10) (s : State) : Result :=
  regImm opAdd (creg rd) sp (s.cfg.xlen.zext uimm) s

/-- C.LW (R334): lw rd', uimm(rs1') -/
def execCLw (rd rs1 : CReg) (uimm : BitVec 7) (s : State) : Result :=
  loadInto (creg rd) (s.ea (creg rs1) (s.cfg.xlen.zext uimm)) 4 (signExt s.cfg.xlen 32) s

/-- C.LD (R335): ld rd', uimm(rs1') -/
def execCLd (rd rs1 : CReg) (uimm : BitVec 8) (s : State) : Result :=
  loadInto (creg rd) (s.ea (creg rs1) (s.cfg.xlen.zext uimm)) 8 (zeroExt s.cfg.xlen 64) s

/-- C.SW (R336): sw rs2', uimm(rs1') -/
def execCSw (rs1 rs2 : CReg) (uimm : BitVec 7) (s : State) : Result :=
  storeTo (s.ea (creg rs1) (s.cfg.xlen.zext uimm)) 4 (s.src2 (creg rs2)) s

/-- C.SD (R337): sd rs2', uimm(rs1') -/
def execCSd (rs1 rs2 : CReg) (uimm : BitVec 8) (s : State) : Result :=
  storeTo (s.ea (creg rs1) (s.cfg.xlen.zext uimm)) 8 (s.src2 (creg rs2)) s

/-- C.NOP (R338): addi x0, x0, imm6 -/
def execCNop (imm : BitVec 6) (s : State) : Result := regImm opAdd 0 0 (s.cfg.xlen.sext imm) s

/-- C.ADDI (R339): addi rd, rd, imm6 -/
def execCAddi (rd : Reg) (imm : BitVec 6) (s : State) : Result := regImm opAdd rd rd (s.cfg.xlen.sext imm) s

/-- C.JAL (R340): jal x1, offset with link pc + 2 -/
def execCJal (off : BitVec 12) (s : State) : Result :=
  jumpLink ra 2 (addOffset s.cfg.xlen s.instrPc (s.cfg.xlen.sext off)) s

/-- C.ADDIW (R341): addiw rd, rd, imm6 -/
def execCAddiw (rd : Reg) (imm : BitVec 6) (s : State) : Result := regImmW opAdd rd rd (s.cfg.xlen.sext imm) s

/-- C.LI (R342): addi rd, x0, imm6 -/
def execCLi (rd : Reg) (imm : BitVec 6) (s : State) : Result := regImm opAdd rd 0 (s.cfg.xlen.sext imm) s

/-- C.ADDI16SP (R343): addi x2, x2, nzimm -/
def execCAddi16sp (imm : BitVec 10) (s : State) : Result := regImm opAdd sp sp (s.cfg.xlen.sext imm) s

/-- C.LUI (R344) -/
def execCLui (rd : Reg) (imm : BitVec 6) (s : State) : Result := writeResult rd (cUpperImm s.cfg.xlen imm) s

/-- C.SRLI (R345): srli rd', rd', shamt -/
def execCSrli (rd : CReg) (shamt : BitVec 6) (s : State) : Result :=
  regImm opSrl (creg rd) (creg rd) (shamt.setWidth 64) s

/-- C.SRAI (R346): srai rd', rd', shamt -/
def execCSrai (rd : CReg) (shamt : BitVec 6) (s : State) : Result :=
  regImm opSra (creg rd) (creg rd) (shamt.setWidth 64) s

/-- C.ANDI (R347): andi rd', rd', imm6 -/
def execCAndi (rd : CReg) (imm : BitVec 6) (s : State) : Result :=
  regImm opAnd (creg rd) (creg rd) (s.cfg.xlen.sext imm) s

/-- C.SUB (R348): sub rd', rd', rs2' -/
def execCSub (rd rs2 : CReg) (s : State) : Result := regReg opSub (creg rd) (creg rd) (creg rs2) s

/-- C.XOR (R349): xor rd', rd', rs2' -/
def execCXor (rd rs2 : CReg) (s : State) : Result := regReg opXor (creg rd) (creg rd) (creg rs2) s

/-- C.OR (R350): or rd', rd', rs2' -/
def execCOr (rd rs2 : CReg) (s : State) : Result := regReg opOr (creg rd) (creg rd) (creg rs2) s

/-- C.AND (R351): and rd', rd', rs2' -/
def execCAnd (rd rs2 : CReg) (s : State) : Result := regReg opAnd (creg rd) (creg rd) (creg rs2) s

/-- C.SUBW (R352): subw rd', rd', rs2' -/
def execCSubw (rd rs2 : CReg) (s : State) : Result := regRegW opSub (creg rd) (creg rd) (creg rs2) s

/-- C.ADDW (R353): addw rd', rd', rs2' -/
def execCAddw (rd rs2 : CReg) (s : State) : Result := regRegW opAdd (creg rd) (creg rd) (creg rs2) s

/-- C.J (R354): jal x0, offset -/
def execCJ (off : BitVec 12) (s : State) : Result :=
  jumpLink 0 2 (addOffset s.cfg.xlen s.instrPc (s.cfg.xlen.sext off)) s

/-- C.BEQZ (R355): beq rs1', x0, offset -/
def execCBeqz (rs1 : CReg) (off : BitVec 9) (s : State) : Result :=
  branchIf (s.compare condEq (creg rs1) 0) (s.cfg.xlen.sext off) s

/-- C.BNEZ (R356): bne rs1', x0, offset -/
def execCBnez (rs1 : CReg) (off : BitVec 9) (s : State) : Result :=
  branchIf (s.compare condNe (creg rs1) 0) (s.cfg.xlen.sext off) s

/-- C.SLLI (R357): slli rd, rd, shamt -/
def execCSlli (rd : Reg) (shamt : BitVec 6) (s : State) : Result := regImm opSll rd rd (shamt.setWidth 64) s

/-- C.LWSP (R358): lw rd, uimm(x2) -/
def execCLwsp (rd : Reg) (uimm : BitVec 8) (s : State) : Result :=
  loadInto rd (s.ea sp (s.cfg.xlen.zext uimm)) 4 (signExt s.cfg.xlen 32) s

/-- C.LDSP (R359): ld rd, uimm(x2) -/
def execCLdsp (rd : Reg) (uimm : BitVec 9) (s : State) : Result :=
  loadInto rd (s.ea sp (s.cfg.xlen.zext uimm)) 8 (zeroExt s.cfg.xlen 64) s

/-- C.JR (R360): jalr x0, 0(rs1) -/
def execCJr (rs1 : Reg) (s : State) : Result := jumpLink 0 2 (jalrTarget s.cfg.xlen (s.src1 rs1) 0) s

/-- C.MV (R361): add rd, x0, rs2 -/
def execCMv (rd rs2 : Reg) (s : State) : Result := regReg opAdd rd 0 rs2 s

/-- C.EBREAK (R362): ebreak -/
def execCEbreak (s : State) : Result := .next s.breakpoint

/-- C.JALR (R363): jalr x1, 0(rs1) with link pc + 2 -/
def execCJalr (rs1 : Reg) (s : State) : Result := jumpLink ra 2 (jalrTarget s.cfg.xlen (s.src1 rs1) 0) s

/-- C.ADD (R364): add rd, rd, rs2 -/
def execCAdd (rd rs2 : Reg) (s : State) : Result := regReg opAdd rd rd rs2 s

/-- C.SWSP (R365): sw rs2, uimm(x2) -/
def execCSwsp (rs2 : Reg) (uimm : BitVec 8) (s : State) : Result :=
  storeTo (s.ea sp (s.cfg.xlen.zext uimm)) 4 (s.src2 rs2) s

/-- C.SDSP (R366): sd rs2, uimm(x2) -/
def execCSdsp (rs2 : Reg) (uimm : BitVec 9) (s : State) : Result :=
  storeTo (s.ea sp (s.cfg.xlen.zext uimm)) 8 (s.src2 rs2) s

end Sys2Proof.Machine
end

