-- ==== Sys2Proof/Machine/Control.lean ====
section
/-! DEFINITION. Branches and jumps (41_control.md, R240 to R252). -/

namespace Sys2Proof.Machine

/-- BEQ (R244) -/
def execBeq (rs1 rs2 : Reg) (off : BitVec 13) (s : State) : Result :=
  branchIf (s.compare condEq rs1 rs2) (s.cfg.xlen.sext off) s

/-- BNE (R245) -/
def execBne (rs1 rs2 : Reg) (off : BitVec 13) (s : State) : Result :=
  branchIf (s.compare condNe rs1 rs2) (s.cfg.xlen.sext off) s

/-- BLT (R246) -/
def execBlt (rs1 rs2 : Reg) (off : BitVec 13) (s : State) : Result :=
  branchIf (s.compare condLt rs1 rs2) (s.cfg.xlen.sext off) s

/-- BGE (R247) -/
def execBge (rs1 rs2 : Reg) (off : BitVec 13) (s : State) : Result :=
  branchIf (s.compare condGe rs1 rs2) (s.cfg.xlen.sext off) s

/-- BLTU (R248) -/
def execBltu (rs1 rs2 : Reg) (off : BitVec 13) (s : State) : Result :=
  branchIf (s.compare condLtu rs1 rs2) (s.cfg.xlen.sext off) s

/-- BGEU (R249) -/
def execBgeu (rs1 rs2 : Reg) (off : BitVec 13) (s : State) : Result :=
  branchIf (s.compare condGeu rs1 rs2) (s.cfg.xlen.sext off) s

/-- JAL (R250) -/
def execJal (rd : Reg) (off : BitVec 21) (s : State) : Result :=
  jumpLink rd 4 (addOffset s.cfg.xlen s.instrPc (s.cfg.xlen.sext off)) s

/-- JALR (R251) -/
def execJalr (rd rs1 : Reg) (imm : BitVec 12) (s : State) : Result :=
  jumpLink rd 4 (jalrTarget s.cfg.xlen (s.src1 rs1) (s.cfg.xlen.sext imm)) s

end Sys2Proof.Machine
end

