-- ==== Sys2Proof/Machine/IntCompute.lean ====
section
/-! DEFINITION. The base integer computations (40_int_compute.md, R180 to R213). -/

namespace Sys2Proof.Machine

/-- LUI (R183) -/
def execLui (rd : Reg) (imm20 : BitVec 20) (s : State) : Result := writeResult rd (upperImm s.cfg.xlen imm20) s

/-- AUIPC (R184) -/
def execAuipc (rd : Reg) (imm20 : BitVec 20) (s : State) : Result :=
  writeResult rd (addOffset s.cfg.xlen s.instrPc (upperImm s.cfg.xlen imm20)) s

/-- ADDI (R185) -/
def execAddi (rd rs1 : Reg) (imm : BitVec 12) (s : State) : Result := regImm opAdd rd rs1 (s.cfg.xlen.sext imm) s

/-- SLTI (R186) -/
def execSlti (rd rs1 : Reg) (imm : BitVec 12) (s : State) : Result := regImm opSlt rd rs1 (s.cfg.xlen.sext imm) s

/-- SLTIU (R187) -/
def execSltiu (rd rs1 : Reg) (imm : BitVec 12) (s : State) : Result := regImm opSltu rd rs1 (s.cfg.xlen.sext imm) s

/-- XORI (R188) -/
def execXori (rd rs1 : Reg) (imm : BitVec 12) (s : State) : Result := regImm opXor rd rs1 (s.cfg.xlen.sext imm) s

/-- ORI (R189) -/
def execOri (rd rs1 : Reg) (imm : BitVec 12) (s : State) : Result := regImm opOr rd rs1 (s.cfg.xlen.sext imm) s

/-- ANDI (R190) -/
def execAndi (rd rs1 : Reg) (imm : BitVec 12) (s : State) : Result := regImm opAnd rd rs1 (s.cfg.xlen.sext imm) s

/-- SLLI (R191) -/
def execSlli (rd rs1 : Reg) (shamt : BitVec 6) (s : State) : Result := regImm opSll rd rs1 (shamt.setWidth 64) s

/-- SRLI (R192) -/
def execSrli (rd rs1 : Reg) (shamt : BitVec 6) (s : State) : Result := regImm opSrl rd rs1 (shamt.setWidth 64) s

/-- SRAI (R193) -/
def execSrai (rd rs1 : Reg) (shamt : BitVec 6) (s : State) : Result := regImm opSra rd rs1 (shamt.setWidth 64) s

/-- ADD (R194) -/
def execAdd (rd rs1 rs2 : Reg) (s : State) : Result := regReg opAdd rd rs1 rs2 s

/-- SUB (R195) -/
def execSub (rd rs1 rs2 : Reg) (s : State) : Result := regReg opSub rd rs1 rs2 s

/-- SLL (R196) -/
def execSll (rd rs1 rs2 : Reg) (s : State) : Result := regReg opSll rd rs1 rs2 s

/-- SLT (R197) -/
def execSlt (rd rs1 rs2 : Reg) (s : State) : Result := regReg opSlt rd rs1 rs2 s

/-- SLTU (R198) -/
def execSltu (rd rs1 rs2 : Reg) (s : State) : Result := regReg opSltu rd rs1 rs2 s

/-- XOR (R199) -/
def execXor (rd rs1 rs2 : Reg) (s : State) : Result := regReg opXor rd rs1 rs2 s

/-- SRL (R200) -/
def execSrl (rd rs1 rs2 : Reg) (s : State) : Result := regReg opSrl rd rs1 rs2 s

/-- SRA (R201) -/
def execSra (rd rs1 rs2 : Reg) (s : State) : Result := regReg opSra rd rs1 rs2 s

/-- OR (R202) -/
def execOr (rd rs1 rs2 : Reg) (s : State) : Result := regReg opOr rd rs1 rs2 s

/-- AND (R203) -/
def execAnd (rd rs1 rs2 : Reg) (s : State) : Result := regReg opAnd rd rs1 rs2 s

/-- ADDIW (R204) -/
def execAddiw (rd rs1 : Reg) (imm : BitVec 12) (s : State) : Result := regImmW opAdd rd rs1 (s.cfg.xlen.sext imm) s

/-- SLLIW (R205) -/
def execSlliw (rd rs1 : Reg) (shamt : BitVec 5) (s : State) : Result := regImmW opSll rd rs1 (shamt.setWidth 64) s

/-- SRLIW (R206) -/
def execSrliw (rd rs1 : Reg) (shamt : BitVec 5) (s : State) : Result := regImmW opSrl rd rs1 (shamt.setWidth 64) s

/-- SRAIW (R207) -/
def execSraiw (rd rs1 : Reg) (shamt : BitVec 5) (s : State) : Result := regImmW opSra rd rs1 (shamt.setWidth 64) s

/-- ADDW (R208) -/
def execAddw (rd rs1 rs2 : Reg) (s : State) : Result := regRegW opAdd rd rs1 rs2 s

/-- SUBW (R209) -/
def execSubw (rd rs1 rs2 : Reg) (s : State) : Result := regRegW opSub rd rs1 rs2 s

/-- SLLW (R210) -/
def execSllw (rd rs1 rs2 : Reg) (s : State) : Result := regRegW opSll rd rs1 rs2 s

/-- SRLW (R211) -/
def execSrlw (rd rs1 rs2 : Reg) (s : State) : Result := regRegW opSrl rd rs1 rs2 s

/-- SRAW (R212) -/
def execSraw (rd rs1 rs2 : Reg) (s : State) : Result := regRegW opSra rd rs1 rs2 s

end Sys2Proof.Machine
end

