-- ==== Sys2Proof/Machine/LoadStore.lean ====
section
/-! DEFINITION. Loads and stores (42_loadstore.md, R255 to R270). -/

namespace Sys2Proof.Machine

/-- LB (R259) -/
def execLb (rd rs1 : Reg) (imm : BitVec 12) (s : State) : Result :=
  loadInto rd (s.ea rs1 (s.cfg.xlen.sext imm)) 1 (signExt s.cfg.xlen 8) s

/-- LH (R260) -/
def execLh (rd rs1 : Reg) (imm : BitVec 12) (s : State) : Result :=
  loadInto rd (s.ea rs1 (s.cfg.xlen.sext imm)) 2 (signExt s.cfg.xlen 16) s

/-- LW (R261) -/
def execLw (rd rs1 : Reg) (imm : BitVec 12) (s : State) : Result :=
  loadInto rd (s.ea rs1 (s.cfg.xlen.sext imm)) 4 (signExt s.cfg.xlen 32) s

/-- LBU (R262) -/
def execLbu (rd rs1 : Reg) (imm : BitVec 12) (s : State) : Result :=
  loadInto rd (s.ea rs1 (s.cfg.xlen.sext imm)) 1 (zeroExt s.cfg.xlen 8) s

/-- LHU (R263) -/
def execLhu (rd rs1 : Reg) (imm : BitVec 12) (s : State) : Result :=
  loadInto rd (s.ea rs1 (s.cfg.xlen.sext imm)) 2 (zeroExt s.cfg.xlen 16) s

/-- LWU (R264) -/
def execLwu (rd rs1 : Reg) (imm : BitVec 12) (s : State) : Result :=
  loadInto rd (s.ea rs1 (s.cfg.xlen.sext imm)) 4 (zeroExt s.cfg.xlen 32) s

/-- LD (R265) -/
def execLd (rd rs1 : Reg) (imm : BitVec 12) (s : State) : Result :=
  loadInto rd (s.ea rs1 (s.cfg.xlen.sext imm)) 8 (zeroExt s.cfg.xlen 64) s

/-- SB (R266) -/
def execSb (rs1 rs2 : Reg) (imm : BitVec 12) (s : State) : Result :=
  storeTo (s.ea rs1 (s.cfg.xlen.sext imm)) 1 (s.src2 rs2) s

/-- SH (R267) -/
def execSh (rs1 rs2 : Reg) (imm : BitVec 12) (s : State) : Result :=
  storeTo (s.ea rs1 (s.cfg.xlen.sext imm)) 2 (s.src2 rs2) s

/-- SW (R268) -/
def execSw (rs1 rs2 : Reg) (imm : BitVec 12) (s : State) : Result :=
  storeTo (s.ea rs1 (s.cfg.xlen.sext imm)) 4 (s.src2 rs2) s

/-- SD (R269) -/
def execSd (rs1 rs2 : Reg) (imm : BitVec 12) (s : State) : Result :=
  storeTo (s.ea rs1 (s.cfg.xlen.sext imm)) 8 (s.src2 rs2) s

end Sys2Proof.Machine
end

