-- ==== Sys2Proof/Machine/MulDiv.lean ====
section
/-! DEFINITION. Multiply and divide (43_muldiv.md, R275 to R290). -/

namespace Sys2Proof.Machine

/-- MUL (R277) -/
def execMul (rd rs1 rs2 : Reg) (s : State) : Result := regReg opMul rd rs1 rs2 s

/-- MULH (R278) -/
def execMulh (rd rs1 rs2 : Reg) (s : State) : Result := regReg opMulh rd rs1 rs2 s

/-- MULHSU (R279) -/
def execMulhsu (rd rs1 rs2 : Reg) (s : State) : Result := regReg opMulhsu rd rs1 rs2 s

/-- MULHU (R280) -/
def execMulhu (rd rs1 rs2 : Reg) (s : State) : Result := regReg opMulhu rd rs1 rs2 s

/-- DIV (R281) -/
def execDiv (rd rs1 rs2 : Reg) (s : State) : Result := regReg opDiv rd rs1 rs2 s

/-- DIVU (R282) -/
def execDivu (rd rs1 rs2 : Reg) (s : State) : Result := regReg opDivu rd rs1 rs2 s

/-- REM (R283) -/
def execRem (rd rs1 rs2 : Reg) (s : State) : Result := regReg opRem rd rs1 rs2 s

/-- REMU (R284) -/
def execRemu (rd rs1 rs2 : Reg) (s : State) : Result := regReg opRemu rd rs1 rs2 s

/-- MULW (R285) -/
def execMulw (rd rs1 rs2 : Reg) (s : State) : Result := regRegW opMul rd rs1 rs2 s

/-- DIVW (R286) -/
def execDivw (rd rs1 rs2 : Reg) (s : State) : Result := regRegW opDiv rd rs1 rs2 s

/-- DIVUW (R287) -/
def execDivuw (rd rs1 rs2 : Reg) (s : State) : Result := regRegW opDivu rd rs1 rs2 s

/-- REMW (R288) -/
def execRemw (rd rs1 rs2 : Reg) (s : State) : Result := regRegW opRem rd rs1 rs2 s

/-- REMUW (R289) -/
def execRemuw (rd rs1 rs2 : Reg) (s : State) : Result := regRegW opRemu rd rs1 rs2 s

end Sys2Proof.Machine
end

