-- ==== Sys2Proof/Machine/System.lean ====
section
/-! DEFINITION. System instructions and fences (46_system.md, R390 to R406). -/

namespace Sys2Proof.Machine

/-- CSRRW (R392) -/
def execCsrrw (rd : Reg) (csr : CsrAddr) (rs1 : Reg) (s : State) : Result :=
  csrAccess rd csr (fun _ => some (s.src1 rs1)) s

/-- CSRRS (R393): no write where the rs1 field is x0 -/
def execCsrrs (rd : Reg) (csr : CsrAddr) (rs1 : Reg) (s : State) : Result :=
  csrAccess rd csr (fun t => if rs1 = 0 then none else some (t ||| s.src1 rs1)) s

/-- CSRRC (R394): no write where the rs1 field is x0 -/
def execCsrrc (rd : Reg) (csr : CsrAddr) (rs1 : Reg) (s : State) : Result :=
  csrAccess rd csr (fun t => if rs1 = 0 then none else some (t &&& ~~~s.src1 rs1)) s

/-- CSRRWI (R395) -/
def execCsrrwi (rd : Reg) (csr : CsrAddr) (uimm : BitVec 5) (s : State) : Result :=
  csrAccess rd csr (fun _ => some (s.cfg.xlen.zext uimm)) s

/-- CSRRSI (R396): no write where uimm is 0 -/
def execCsrrsi (rd : Reg) (csr : CsrAddr) (uimm : BitVec 5) (s : State) : Result :=
  csrAccess rd csr (fun t => if uimm = 0 then none else some (t ||| s.cfg.xlen.zext uimm)) s

/-- CSRRCI (R397): no write where uimm is 0 -/
def execCsrrci (rd : Reg) (csr : CsrAddr) (uimm : BitVec 5) (s : State) : Result :=
  csrAccess rd csr (fun t => if uimm = 0 then none else some (t &&& ~~~s.cfg.xlen.zext uimm)) s

/-- ECALL (R398): stop with a0 on a7 = 1 or 93, emit a2 bytes from a1 on a7 = 64 with a0 = 1, else nothing. It reads the register
file at EX in both pipelines: every older instruction has been committed by then (R518). -/
def execEcall (s : State) : Result := if s.x 17 = 1 ∨ s.x 17 = 93 then .next (s.requestStop (.stopped (s.x 10)))
  else if s.x 17 = 64 ∧ s.x 10 = 1 then emitBytes (s.x 11) 0 (s.x 12).toNat s
  else .next s

/-- EBREAK (R400) -/
def execEbreak (s : State) : Result := .next s.breakpoint

/-- MRET (R401) -/
def execMret (s : State) : Result := .next (returnFromTrap s)

/-- WFI (R402): a NOP -/
def execWfi (s : State) : Result := .next s

/-- FENCE (R404): a NOP -/
def execFence (_fm _pred _succ : BitVec 4) (_rs1 _rd : Reg) (s : State) : Result := .next s

/-- FENCE.I (R405): a NOP -/
def execFenceI (_imm : BitVec 12) (_rs1 _rd : Reg) (s : State) : Result := .next s

end Sys2Proof.Machine
end

