-- ==== Sys2Proof/Machine/Record.lean ====
section
/-! DEFINITION. The decoder's instruction record (R150, R151) and the base expansion of a compressed instruction (R330). -/

namespace Sys2Proof.Machine

/-- The class of a decoded instruction (R150). -/
def Instr.cls : Instr → InstrClass
  | .lui .. | .auipc .. | .jal .. | .jalr .. | .beq .. | .bne .. | .blt .. | .bge .. | .bltu .. | .bgeu .. => .baseI
  | .lb .. | .lh .. | .lw .. | .ld .. | .lbu .. | .lhu .. | .lwu .. | .sb .. | .sh .. | .sw .. | .sd .. => .baseI
  | .addi .. | .slti .. | .sltiu .. | .xori .. | .ori .. | .andi .. | .slli .. | .srli .. | .srai .. => .baseI
  | .add .. | .sub .. | .sll .. | .slt .. | .sltu .. | .xor .. | .srl .. | .sra .. | .or .. | .and .. => .baseI
  | .addiw .. | .slliw .. | .srliw .. | .sraiw .. | .addw .. | .subw .. | .sllw .. | .srlw .. | .sraw .. => .baseI
  | .fence .. | .fenceI .. => .baseI
  | .mul .. | .mulh .. | .mulhsu .. | .mulhu .. | .div .. | .divu .. | .rem .. | .remu .. => .muldiv
  | .mulw .. | .divw .. | .divuw .. | .remw .. | .remuw .. => .muldiv
  | .lrW .. | .scW .. | .amoswapW .. | .amoaddW .. | .amoxorW .. | .amoandW .. | .amoorW .. | .amominW ..
  | .amomaxW .. | .amominuW .. | .amomaxuW .. => .atomic
  | .lrD .. | .scD .. | .amoswapD .. | .amoaddD .. | .amoxorD .. | .amoandD .. | .amoorD .. | .amominD ..
  | .amomaxD .. | .amominuD .. | .amomaxuD .. => .atomic
  | .csrrw .. | .csrrs .. | .csrrc .. | .csrrwi .. | .csrrsi .. | .csrrci .. | .ecall | .ebreak | .mret | .wfi => .system
  | .cAddi4spn .. | .cLw .. | .cLd .. | .cSw .. | .cSd .. | .cNop .. | .cAddi .. | .cJal .. | .cAddiw .. | .cLi ..
  | .cAddi16sp .. | .cLui .. | .cSrli .. | .cSrai .. | .cAndi .. | .cSub .. | .cXor .. | .cOr .. | .cAnd ..
  | .cSubw .. | .cAddw .. | .cJ .. | .cBeqz .. | .cBnez .. | .cSlli .. | .cLwsp .. | .cLdsp .. | .cJr .. | .cMv ..
  | .cEbreak | .cJalr .. | .cAdd .. | .cSwsp .. | .cSdsp .. => .compressed

def Instr.isCompressed (i : Instr) : Bool := decide (Instr.cls i = .compressed)

/-- The 32-bit expansion of a compressed instruction (R330, R333 to R366); any other instruction is its own. -/
def Instr.expand : Instr → Instr
  | .cAddi4spn rd uimm => .addi (creg rd) sp (uimm.setWidth 12)
  | .cLw rd rs1 uimm => .lw (creg rd) (creg rs1) (uimm.setWidth 12)
  | .cLd rd rs1 uimm => .ld (creg rd) (creg rs1) (uimm.setWidth 12)
  | .cSw rs1 rs2 uimm => .sw (creg rs1) (creg rs2) (uimm.setWidth 12)
  | .cSd rs1 rs2 uimm => .sd (creg rs1) (creg rs2) (uimm.setWidth 12)
  | .cNop imm => .addi 0 0 (imm.signExtend 12)
  | .cAddi rd imm => .addi rd rd (imm.signExtend 12)
  | .cJal off => .jal ra (off.signExtend 21)
  | .cAddiw rd imm => .addiw rd rd (imm.signExtend 12)
  | .cLi rd imm => .addi rd 0 (imm.signExtend 12)
  | .cAddi16sp imm => .addi sp sp (imm.signExtend 12)
  | .cLui rd imm => .lui rd (imm.signExtend 20)
  | .cSrli rd shamt => .srli (creg rd) (creg rd) shamt
  | .cSrai rd shamt => .srai (creg rd) (creg rd) shamt
  | .cAndi rd imm => .andi (creg rd) (creg rd) (imm.signExtend 12)
  | .cSub rd rs2 => .sub (creg rd) (creg rd) (creg rs2)
  | .cXor rd rs2 => .xor (creg rd) (creg rd) (creg rs2)
  | .cOr rd rs2 => .or (creg rd) (creg rd) (creg rs2)
  | .cAnd rd rs2 => .and (creg rd) (creg rd) (creg rs2)
  | .cSubw rd rs2 => .subw (creg rd) (creg rd) (creg rs2)
  | .cAddw rd rs2 => .addw (creg rd) (creg rd) (creg rs2)
  | .cJ off => .jal 0 (off.signExtend 21)
  | .cBeqz rs1 off => .beq (creg rs1) 0 (off.signExtend 13)
  | .cBnez rs1 off => .bne (creg rs1) 0 (off.signExtend 13)
  | .cSlli rd shamt => .slli rd rd shamt
  | .cLwsp rd uimm => .lw rd sp (uimm.setWidth 12)
  | .cLdsp rd uimm => .ld rd sp (uimm.setWidth 12)
  | .cJr rs1 => .jalr 0 rs1 0
  | .cMv rd rs2 => .add rd 0 rs2
  | .cEbreak => .ebreak
  | .cJalr rs1 => .jalr ra rs1 0
  | .cAdd rd rs2 => .add rd rd rs2
  | .cSwsp rs2 uimm => .sw sp rs2 (uimm.setWidth 12)
  | .cSdsp rs2 uimm => .sd sp rs2 (uimm.setWidth 12)
  | i => i

/-! ### What an instruction uses -/

/-- The instruction writes memory at commit: stores, AMOs and SC (R503). -/
def Instr.isStore (i : Instr) : Bool :=
  match Instr.expand i with
  | .sb .. | .sh .. | .sw .. | .sd .. => true
  | .scW .. | .amoswapW .. | .amoaddW .. | .amoxorW .. | .amoandW .. | .amoorW .. | .amominW .. | .amomaxW ..
  | .amominuW .. | .amomaxuW .. => true
  | .scD .. | .amoswapD .. | .amoaddD .. | .amoxorD .. | .amoandD .. | .amoorD .. | .amominD .. | .amomaxD ..
  | .amominuD .. | .amomaxuD .. => true
  | _ => false

/-- The instruction is a branch, a jump or MRET (R503). -/
def Instr.isBranch (i : Instr) : Bool :=
  match Instr.expand i with
  | .beq .. | .bne .. | .blt .. | .bge .. | .bltu .. | .bgeu .. | .jal .. | .jalr .. | .mret => true
  | _ => false

/-- The forms without a destination register (R151, R510): stores, branches, fences, ECALL, EBREAK, MRET, WFI. -/
def Instr.hasDest (i : Instr) : Bool :=
  match Instr.expand i with
  | .sb .. | .sh .. | .sw .. | .sd .. | .beq .. | .bne .. | .blt .. | .bge .. | .bltu .. | .bgeu .. => false
  | .fence .. | .fenceI .. | .ecall | .ebreak | .mret | .wfi => false
  | _ => true

/-- The source fields the base expansion of a compressed instruction uses (R330). -/
def Instr.usesRs1 (i : Instr) : Bool :=
  match Instr.expand i with
  | .lui .. | .jal .. | .ebreak => false
  | _ => true

def Instr.usesRs2 (i : Instr) : Bool :=
  match Instr.expand i with
  | .add .. | .sub .. | .xor .. | .or .. | .and .. | .addw .. | .subw .. | .sw .. | .sd .. | .beq .. | .bne .. => true
  | _ => false

/-! ### The record -/

/-- The word has the I-shift format (R142): OP-IMM or OP-IMM-32 with funct3 001 or 101. -/
def isShiftFormat (w : BitVec 32) : Bool :=
  (opcodeOf w == 0x13 || opcodeOf w == 0x1B) && (funct3Of w == 1 || funct3Of w == 5)

/-- `shamt` (R143): 6 bits in RV64 but for the W shifts, else 5. -/
def shamtOf (xl : XLen) (w : BitVec 32) : Word :=
  if xl = .rv64 ∧ opcodeOf w = 0x13 then (shamt6 w).setWidth 64 else (rs2Of w).setWidth 64

/-- The immediate of a word by its format (R142, R143). DESIGN CHOICE, entry 12: 0 for the R formats, which have none; `shamt`
for the I-shift format, which has no imm; and the same by opcode and funct3 for a word of no row. -/
def immOfWord (xl : XLen) (w : BitVec 32) : Word :=
  match (opcodeOf w).toNat with
  | 0x37 | 0x17 => upperImm xl (immU w)
  | 0x6F => xl.sext (immJ w)
  | 0x63 => xl.sext (immB w)
  | 0x23 => xl.sext (immS w)
  | 0x33 | 0x3B | 0x2F => 0
  | _ => if isShiftFormat w then shamtOf xl w else xl.sext (immI w)

/-- The fields of a 32-bit word (R151): rd is 0 for the S and B formats, the rest are the bits of the word. For a word of no row
the format is taken by its opcode: rd 0 for STORE and BRANCH, else bits [11:7]. DESIGN CHOICE, entry 12. -/
def fieldsOfWord (xl : XLen) (w : BitVec 32) (pc : Word) (cls : InstrClass) (op : Option Instr) : Record where
  word := w
  pc := pc
  cls := cls
  rd := if opcodeOf w = 0x23 ∨ opcodeOf w = 0x63 then 0 else rdOf w
  rs1 := rs1Of w
  rs2 := rs2Of w
  funct3 := funct3Of w
  funct7 := funct7Of w
  opcode := opcodeOf w
  imm := immOfWord xl w
  op := op

/-- The record of a compressed instruction: the fields of its expansion, an unused field 0 (R151, R330, D34). That C.EBREAK,
whose expansion has no operand, uses no immediate is the model's reading, entry 12. -/
def compressedRecord (xl : XLen) (w : BitVec 32) (pc : Word) (i : Instr) : Record :=
  let r := fieldsOfWord xl (encode (Instr.expand i)) pc .compressed (some i)
  { r with
    word := w
    imm := if Instr.expand i = .ebreak then 0 else r.imm
    rd := if Instr.hasDest i then r.rd else 0
    rs1 := if Instr.usesRs1 i then r.rs1 else 0
    rs2 := if Instr.usesRs2 i then r.rs2 else 0 }

/-- `decode(word, pc)` (R150 to R160). A word of no row has class Unknown and no instruction; a 16-bit one has fields 0,
since bits [31:16] belong to the next instruction (R141; entry 12). -/
def decodeRecord (xl : XLen) (w : BitVec 32) (pc : Word) : Record :=
  match decode xl w with
  | .ok i => if Instr.isCompressed i then compressedRecord xl w pc i else fieldsOfWord xl w pc (Instr.cls i) (some i)
  | .error .unknownCompressed => { Record.blank with word := w, pc := pc }
  | .error .unknownWord => fieldsOfWord xl w pc .unknown none

/-- `dest_reg` of a ROB entry: the record's rd, 0 for the no-destination forms (R510) and for Unknown (R160). -/
def Record.destReg (r : Record) : Reg :=
  match r.op with
  | some i => if Instr.hasDest i then r.rd else 0
  | none => 0

end Sys2Proof.Machine
end

