-- ==== Sys2Proof/Machine/Fetch.lean ====
section
/-! DEFINITION. Instruction fetch (R35, R92, R106, R107, R411). -/

namespace Sys2Proof.Machine

/-- The length of a fetched instruction in bytes (R140). -/
def instrLength (w : BitVec 32) : Word := if isCompressedWord w then 2 else 4

/-- What `Fetch` answers: the word, or the machine where the fetch ends the run. -/
inductive FetchReply where
  | ok (w : BitVec 32) (s : State)
  | stopped (r : Result)

/-- `Fetch(a)` (R106): refused in a device range or at `TOHOST_ADDR` (R107); through a cached descriptor that covers the
word; else a 4-byte Read of the instruction initiator, whose failure is fatal, and a request for a descriptor (R92). -/
def fetch (pc : Word) (s : State) : FetchReply :=
  if isDeviceAddr s.cfg pc then .stopped (refuseFetch pc s)
  else if s.dmi.any (·.covers pc) then .ok ((leValue (s.mem.readBytes s.cfg.xlen pc 4)).setWidth 32) s
  else match transport ⟨.instruction, .read, pc, 4, []⟩ s with
    | .ok bytes s' => .ok ((leValue bytes).setWidth 32) s'.requestDmi
    | .addressError => .stopped (raiseFetchError pc s)
    | .burstError => .stopped (raiseFetchError pc s)
    | .eos s' => .stopped (.next s')
    | .unsupported => .stopped (refuseFetch pc s)

end Sys2Proof.Machine
end

