-- ==== Sys2Proof/Machine/Agents.lean ====
section
/-! DEFINITION. The agents other than the core, at the boundary before a cycle (R8, R131 to R135, R414, R454, R481), and the
interrupt poll that begins a cycle (R421 to R427, R522). -/

namespace Sys2Proof.Machine

/-! ### The timer (R454) -/

/-- The number of the cycle to come, counted from 1, and its time in nanoseconds (R454, R480). -/
def State.nextTime (s : State) : Nat := (s.stats.cycles + 1) * s.cfg.clkPeriod

/-- The ticks at or before a time: k · MTIME_TICK ≤ t, k ≥ 1. -/
def ticksUpTo (cfg : Config) (t : Nat) : Nat := t / cfg.mtimeTick

/-- The ticks strictly before a time. -/
def ticksBefore (cfg : Config) (t : Nat) : Nat := (t - 1) / cfg.mtimeTick

/-- Perform the ticks up to the `due`-th: each increments `mtime` modulo 2^64 (R450). -/
def State.tickTo (due : Nat) (s : State) : State :=
  if s.timer.ticks < due then
    { s with timer := { s.timer with
        mtime := s.timer.mtime + BitVec.ofNat 64 (due - s.timer.ticks), ticks := due } }
  else s

/-- One tick, where one is due by the next cycle's time; a tick at that very time may run here (R454). -/
def State.tickOnce (s : State) : State :=
  if s.timer.ticks < ticksUpTo s.cfg s.nextTime then s.tickTo (s.timer.ticks + 1) else s

/-! ### The DMA engine (R130 to R135) -/

/-- The end of a transfer, completed or aborted (R132, R133): `control` bit 0, `in_flight` and `dma_in_flight` clear. -/
def State.dmaDone (s : State) : State :=
  { s with dma := { s.dma with control := s.dma.control &&& ~~~1, inFlight := false, buffer := none } }

/-- Two byte ranges meet, the first one taken modulo 2^XLEN. -/
def rangesMeet (xl : XLen) (a len base size : Nat) : Bool :=
  (decide (a < base + size) && decide (base < a + len)) || decide (base + 2 ^ xl.bits < a + len)

/-- The byte range of a DMA transaction meets a device range or `TOHOST_ADDR` (R134). -/
def meetsDevice (cfg : Config) (a : Word) (len : Nat) : Bool :=
  targets.any (fun t => rangesMeet cfg.xlen a.toNat len (targetBase t) (targetSize t)) ||
    rangesMeet cfg.xlen a.toNat len cfg.tohostAddr.toNat 1

/-- One transaction of the DMA initiator: a device in its range is refused (R134), a status other than OK aborts the
transfer (R133). -/
def dmaTransfer (tx : Tx) (s : State) (k : List Byte → State → Result) : Result :=
  if meetsDevice s.cfg tx.addr tx.len then refuseDma tx.addr s
  else match transport tx s with
    | .ok bytes s' => k bytes s'
    | .addressError => .next s.dmaDone
    | .burstError => .next s.dmaDone
    | .eos s' => .next s'
    | .unsupported => refuseDma tx.addr s

/-- One DMA step: the Read (R131), or after it the Write (R132). A length of 0 completes with no access (R131). The addresses
are zero-extended (R127). -/
def dmaStep (s : State) : Result :=
  if s.dma.inFlight then
    match s.dma.buffer with
    | none =>
      if s.dma.xferLen = 0 then .next s.dmaDone
      else dmaTransfer ⟨.dma, .read, s.dma.xferSrc.setWidth 64, s.dma.xferLen.toNat, []⟩ s fun bytes s' =>
        .next { s' with dma := { s'.dma with buffer := some bytes } }
    | some bytes =>
      dmaTransfer ⟨.dma, .write, s.dma.xferDst.setWidth 64, s.dma.xferLen.toNat, bytes⟩ s fun _ s' =>
        .next s'.dmaDone
  else .next s

/-! ### The boundary (R481) -/

/-- Go on in the same step, unless an outcome has been raised (R415). -/
def Result.andThen (r : Result) (k : State → Result) : Result :=
  match r with
  | .next s => if s.outcome.isSome then .next s else k s
  | .fault f => .fault f
  | .refused f => .refused f

def agentEvent (e : AgentEvent) (s : State) : Result :=
  match e with
  | .tick => .next s.tickOnce
  | .dma => dmaStep s
  | .hostStop => .next (s.withOutcome .hostStopped)

def agentEvents : List AgentEvent → State → Result
  | [], s => .next s
  | e :: es, s => (agentEvent e s).andThen (agentEvents es)

/-- The instruction cap is set and reached (R414). -/
def State.capReached (s : State) : Bool :=
  match s.cfg.maxInstr with
  | some n => decide (n ≤ s.stats.retired)
  | none => false

/-- What the agents do at this boundary: the head of the schedule; where the schedule names no more boundaries, the host
stops if its cap is reached, else a tick that is due runs and the DMA engine steps once. The boundary before cycle 1 is one
of them: a host stop, or a cap of 0, ends the run before any cycle. DESIGN CHOICE, entry 4. -/
def State.events (s : State) : List AgentEvent :=
  match s.schedule with
  | es :: _ => es
  | [] => if s.capReached then [.hostStop] else [.tick, .dma]

/-- The boundary before a cycle, the first cycle included (entry 4): the agents' events in order, then the ticks that are strictly before the cycle's time, and
the delivery of a DMI invalidation (R93, R481). -/
def boundary (s : State) : Result :=
  (agentEvents s.events { s with schedule := s.schedule.tail }).andThen fun s =>
    .next (s.tickTo (ticksBefore s.cfg s.nextTime)).deliverInvalidation

/-! ### The interrupt poll (R422) -/

/-- The deassertion check (R427). -/
def State.deassert (s : State) : State :=
  if s.irq.entered && !s.irqLine then
    { s with csr := { s.csr with mip := s.csr.mip &&& ~~~meipBit }, irq := { s.irq with entered := false } }
  else s

/-- Nothing is in the ROB and L4 is a bubble (R426). -/
def State.drained (s : State) : Bool := s.six.count == 0 && !s.six.reg.l4.valid

/-- The entry check (R421), and in the 6-stage pipeline the drain (R426, R522). -/
def State.entryCheck (s : State) : State :=
  match s.cfg.pipe with
  | .twoStage => if s.entryCondition then enterInterrupt s else s
  | .sixStage =>
    if s.entryCondition then
      if s.drained then enterInterrupt s else { s with irq := { s.irq with drain := true } }
    else { s with irq := { s.irq with drain := false } }

/-- R422. -/
def poll (s : State) : State := s.deassert.entryCheck

end Sys2Proof.Machine
end

