-- ==== Sys2Proof/Machine/TwoStage.lean ====
section
/-! DEFINITION. The 2-stage pipeline (R485 to R495). -/

namespace Sys2Proof.Machine

/-- `execute(decode(instruction))` (R488): a word of no row is a NOP (R160). -/
def executeWord (w : BitVec 32) (s : State) : Result :=
  match decode s.cfg.xlen w with
  | .ok i => exec i s
  | .error _ => .next s

/-- A retired instruction is counted (R492). -/
def State.countRetired (s : State) : State := { s with stats := { s.stats with retired := s.stats.retired + 1 } }

/-- A taken transfer is counted (R486, R502). -/
def State.countRedirect (s : State) : State :=
  { s with stats := { s.stats with flushes := s.stats.flushes + 1, controlHazards := s.stats.controlHazards + 1 } }

/-- A stall cycle is counted (R481, R490). -/
def State.countStall (s : State) : State := { s with stats := { s.stats with stalls := s.stats.stalls + 1 } }

/-- Step 1: the latch moves. -/
def twoAdvance (s : State) : State := { s with two := { s.two with latch := s.two.latchNext } }

/-- After the executor returns (R486 step 2): the instruction counts as retired, the one that ended the run included (R494); a
stop is raised; a taken transfer moves the fetch PC and flushes. -/
def twoAfterExecute (s : State) : Result :=
  let s1 := { s.countRetired with ex := .none }
  match s.ex.stop with
  | some o => .next (s1.withOutcome o)
  | none =>
    match s.ex.target with
    | some t => .next { s1.countRedirect with two := { s1.two with pc := t, flush := true } }
    | none => .next s1

/-- Step 2, EX. -/
def twoEx (s : State) : Result :=
  if s.two.latch.valid then
    match executeWord s.two.latch.word s with
    | .next s' => twoAfterExecute s'
    | .fault f => .fault f
    | .refused r => .refused r
  else .next s

/-- The latch IF fills, and the advance of the fetch PC by 2 or 4 (R486 step 3). -/
def twoLatchFetched (w : BitVec 32) (s : State) : State :=
  { s with two := { s.two with
      latchNext := ⟨true, s.two.pc, w⟩
      pc := addOffset s.cfg.xlen s.two.pc (instrLength w) } }

/-- The word IF passes on, where the fetch answers `w`: that word, the memory of this moment (R123, R486). Where the parameter
`oldWordAfterStore` holds, it is the word of main memory as it was `before` the EX of this cycle, so that a store of that EX is
not seen (R124, R533). Entry 23. -/
def wordSeen (before : Memory) (w : BitVec 32) (s : State) : BitVec 32 :=
  if s.cfg.oldWordAfterStore then (leValue (before.readBytes s.cfg.xlen s.two.pc 4)).setWidth 32 else w

/-- Step 3, IF; `before` as in `wordSeen`. -/
def twoIf (before : Memory) (s : State) : Result :=
  if s.two.flush then .next { s with two := { s.two with latchNext := .bubble, flush := false } }
  else if s.dma.inFlight then .next { s.countStall with two := { s.two with latchNext := .bubble } }
  else match fetch s.two.pc s with
    | .ok w s' => .next (twoLatchFetched (wordSeen before w s') s')
    | .stopped r => r

/-- The stage work of one cycle (R486): EX, then IF. So the word after a store is fetched after the store's Write and is the new
one; R124, R533 and V186 infer that it is the old one, which the parameter `oldWordAfterStore` gives. DESIGN CHOICE, entry
23. -/
def twoStages (s : State) : Result := (twoEx (twoAdvance s)).andThen (twoIf s.mem)

end Sys2Proof.Machine
end

