-- ==== Sys2Proof/Machine/SixStage.lean ====
section
/-! DEFINITION. The 6-stage pipeline (R500 to R524). Each stage reads the `_reg` latches and writes `_next`; the redirect
and the squash of a cycle are the executor's result `ex` of that cycle (R500, R502). -/

namespace Sys2Proof.Machine

def State.redirecting (s : State) : Bool := s.ex.target.isSome
def State.squashing (s : State) : Bool := s.ex.stop.isSome

/-- The stalls IS and IF assert within a cycle (R503, R506). -/
structure Stalls where
  issue : Bool
  dma : Bool
  deriving DecidableEq, Repr

def State.withNext (l : SixLatches) (s : State) : State := { s with six := { s.six with next := l } }

def State.robAt (i : Nat) (s : State) : RobEntry := s.six.rob.getD i .empty

def State.setRob (i : Nat) (e : RobEntry) (s : State) : State :=
  { s with six := { s.six with rob := s.six.rob.set i e } }

/-! ### Commit (R501, R515, R520) -/

/-- The head entry leaves the ROB and counts as retired. -/
def retireHead (s : State) : State :=
  let e := s.robAt s.six.head
  { (s.setRob s.six.head { e with valid := false }).countRetired with
    six := { s.six with
      rob := s.six.rob.set s.six.head { e with valid := false }
      head := (s.six.head + 1) % s.cfg.robN
      count := s.six.count - 1 } }

/-- The Write of a retiring store: the store buffer's head (R512). An access that ends the run in `Stopped` leaves the store
complete, counted as retired (R415, R520); a failing store does not retire. -/
def commitStore (s : State) : Access Word :=
  match s.six.sb with
  | [] => .ok 0 s
  | e :: rest =>
    let s' := { s with six := { s.six with sb := rest } }
    match memWrite e.address e.size e.data s' with
    | .ok v t => .ok v t
    | .stopped (.next t) => .stopped (.next (retireHead t))
    | .stopped (.fault f) => .stopped (.fault f)
    | .stopped (.refused r) => .stopped (.refused r)

/-- The register write of a retiring entry (R515). -/
def commitRegister (e : RobEntry) (s : State) : State := s.setX e.destReg e.result

def commit (s : State) : Result :=
  let e := s.robAt s.six.head
  if s.six.count > 0 && e.ready then
    match e.exception with
    | some o => .next ((retireHead s).withOutcome o)
    | none =>
      (if e.isStore then commitStore s else .ok 0 s).andThen fun _ s' =>
        .next (retireHead (commitRegister e s'))
  else .next s

/-! ### EX (R502, R510 to R513, R519) -/

/-- `rob.complete`: the entry is ready, with a stop recorded (R502). The result was put there by the executor. -/
def completeRob (s : State) : State :=
  let i := s.six.reg.l4.robIndex
  let e := s.robAt i
  s.setRob i { e with ready := true, exception := s.ex.stop }

/-- After the executor returns (R502). -/
def sixAfterExecute (s : State) : Result :=
  let s1 := completeRob s
  .next (if s.redirecting then s1.countRedirect else s1)

def sixExecute (op : Option Instr) (s : State) : Result :=
  match op with
  | none => .next s
  | some i => if Instr.isCompressed i then refuseCompressed s.six.reg.l4.pc s else exec i s

def sixEx (s : State) : Result :=
  if s.six.reg.l4.valid then (sixExecute s.six.reg.l4.op s).andThen sixAfterExecute else .next s

/-! ### IS (R503, R516) -/

/-- The scoreboard: some valid ROB entry has `dest_reg = r`, and r is not x0 (R59, R516). -/
def State.busy (r : Reg) (s : State) : Bool := r != 0 && s.six.rob.any fun e => e.valid && e.destReg == r

/-- IS may not issue L3 (R503). -/
def State.mustStall (s : State) : Bool :=
  s.irq.drain || s.busy s.six.reg.l3.record.rs1 || s.busy s.six.reg.l3.record.rs2 || s.six.count == s.cfg.robN

/-- The ROB entry IS allocates (R503). -/
def newRobEntry (r : Record) : RobEntry where
  valid := true
  ready := false
  destReg := r.destReg
  result := 0
  isStore := r.op.any Instr.isStore
  isBranch := r.op.any Instr.isBranch
  exception := none
  pc := r.pc

/-- L4 of the instruction IS issues, its operands read from the register file (R503). -/
def issueLatch (r : Record) (s : State) : IssueLatch where
  valid := true
  pc := r.pc
  op := r.op
  rd := r.rd
  rs1Val := s.x r.rs1
  rs2Val := s.x r.rs2
  robIndex := s.six.tail

/-- Allocate a ROB slot and send L3 to EX (R503). -/
def issue (s : State) : State :=
  let r := s.six.reg.l3.record
  { s with six := { s.six with
      rob := s.six.rob.set s.six.tail (newRobEntry r)
      tail := (s.six.tail + 1) % s.cfg.robN
      count := s.six.count + 1
      next := { s.six.next with l4 := issueLatch r s } } }

def issueBubble (s : State) : State := s.withNext { s.six.next with l4 := .bubble }

def sixIs (s : State) : State × Bool :=
  if s.redirecting || s.squashing then (issueBubble s, false)
  else if !s.six.reg.l3.valid then (issueBubble s, false)
  else if s.mustStall then
    ({ issueBubble s with stats := { s.stats with issueStalls := s.stats.issueStalls + 1 } }, true)
  else (issue s, false)

/-! ### ID (R504) -/

def sixId (stall : Bool) (s : State) : State :=
  let l2 := s.six.reg.l2
  let l3 :=
    if s.redirecting || s.squashing then .bubble
    else if stall then s.six.reg.l3
    else if l2.valid then ⟨true, decodeRecord s.cfg.xlen l2.word l2.pc⟩
    else .bubble
  s.withNext { s.six.next with l3 := l3 }

/-! ### IF (R506) -/

def State.withL2 (l2 : FetchLatch) (s : State) : State := s.withNext { s.six.next with l2 := l2 }

/-- IF answers the state and `dma_stall`. -/
def sixIf (stall : Bool) (s : State) (k : Stalls → State → Result) : Result :=
  if s.redirecting || s.squashing then k ⟨stall, false⟩ (s.withL2 .bubble)
  else if stall then k ⟨stall, false⟩ (s.withL2 s.six.reg.l2)
  else if s.dma.inFlight then k ⟨stall, true⟩ (s.countStall.withL2 .bubble)
  else if s.six.reg.l1.valid then
    match fetch s.six.reg.l1.pc s with
    | .ok w s' => k ⟨stall, false⟩ (s'.withL2 ⟨true, s'.six.reg.l1.pc, w⟩)
    | .stopped r => r
  else k ⟨stall, false⟩ (s.withL2 .bubble)

/-! ### PCGen (R505) -/

def State.withL1 (l1 : PcLatch) (s : State) : State := s.withNext { s.six.next with l1 := l1 }

def pcGen (stalls : Stalls) (s : State) : State :=
  match s.ex.target with
  | some t => { s.withL1 .bubble with six := { (s.withL1 .bubble).six with pcgenPc := t } }
  | none =>
    if s.squashing then s.withL1 .bubble
    else if stalls.issue || stalls.dma then s.withL1 s.six.reg.l1
    else
      let s' := s.withL1 ⟨true, s.six.pcgenPc⟩
      { s' with six := { s'.six with pcgenPc := addOffset s.cfg.xlen s.six.pcgenPc 4 } }

/-! ### The cycle (R500) -/

/-- The clock edge: `_reg <- _next`, and the signals of the cycle are cleared. -/
def clockEdge (s : State) : State := { s with six := { s.six with reg := s.six.next }, ex := .none }

/-- The front end after EX: IS, ID, IF, PCGen and the clock edge. -/
def sixFrontEnd (s : State) : Result :=
  let r := sixIs s
  sixIf r.2 (sixId r.2 r.1) fun stalls s' => .next (clockEdge (pcGen stalls s'))

/-- The stage work of one cycle, in reverse program order (R500). -/
def sixStages (s : State) : Result := ((commit s).andThen sixEx).andThen sixFrontEnd

end Sys2Proof.Machine
end

