-- ==== Sys2Proof/Machine/Cycle.lean ====
section
/-! DEFINITION. The order of events inside one clock cycle (R481). -/

namespace Sys2Proof.Machine

/-- The stages of the configured pipeline (R481 step 3). -/
def stages (s : State) : Result :=
  match s.cfg.pipe with
  | .twoStage => twoStages s
  | .sixStage => sixStages s

/-- Step 2: a cycle of interrupt latency does no stage work and counts a stall (R481). -/
def billLatency (s : State) : State := { s.countStall with irq := { s.irq with stall := s.irq.stall - 1 } }

/-- Step 4: the cycle is counted. -/
def countCycle (s : State) : State := { s with stats := { s.stats with cycles := s.stats.cycles + 1 } }

/-- Steps 2 and 3. -/
def cycleWork (s : State) : Result := if s.irq.stall > 0 then .next (billLatency s) else stages s

/-- One clock cycle (R481). -/
def cycle (s : State) : Result := (cycleWork (poll s)).andThen fun s => .next (countCycle s)

end Sys2Proof.Machine
end

