-- ==== Sys2Proof/Machine/ProgramLoad.lean ====
section
/-! DEFINITION. Placing one instruction as the next one the core executes. The hardware has no fetch-and-execute step: a word
is fetched in one cycle and executed in a later one (R486, R500). Assumption log entry 8. -/

namespace Sys2Proof.Machine

/-- The XLEN at which a table word is run: the machine's own where it already decodes to the same instruction there, else
the one the decoder reads it at. -/
def placedXLen (xl : XLen) (nbits w : Nat) : XLen :=
  if (decode xl (tableWord nbits w)).toOption = decodeTableWord nbits w then xl else tableXLen nbits w

/-- The 2-stage pipeline with the word fetched at the fetch PC, as IF leaves it. -/
def placeTwo (w : BitVec 32) (s : State) : State := twoLatchFetched w s

/-- The 6-stage pipeline with the word fetched at `pcgen_pc`, decoded and issued to EX, as IS and the clock edge leave it. -/
def placeSix (w : BitVec 32) (s : State) : State :=
  let pc := s.six.pcgenPc
  let s1 := { s with six := { s.six with
    reg := { s.six.reg with l3 := ⟨true, decodeRecord s.cfg.xlen w pc⟩ }
    pcgenPc := addOffset s.cfg.xlen pc 4 } }
  let s2 := issue s1
  { s2 with six := { s2.six with reg := { s2.six.reg with l3 := .bubble, l4 := s2.six.next.l4 } } }

/-- The fetch PC of the configured pipeline (R34). -/
def State.fetchPc (s : State) : Word :=
  match s.cfg.pipe with
  | .twoStage => s.two.pc
  | .sixStage => s.six.pcgenPc

/-- Store the word's bytes at the fetch PC and put it in the latch the next step's EX reads. -/
def placeInstruction (s : State) (nbits w : Nat) : State :=
  let word := tableWord nbits w
  let s1 := { s with
    cfg := { s.cfg with xlen := placedXLen s.cfg.xlen nbits w }
    mem := s.mem.writeBytes s.cfg.xlen s.fetchPc (leBytes 4 (word.setWidth 64)) }
  match s1.cfg.pipe with
  | .twoStage => placeTwo word s1
  | .sixStage => placeSix word s1

end Sys2Proof.Machine
end

