-- ==== Sys2Proof/Machine/Step.lean ====
section
/-! DEFINITION. One step: the other agents at the boundary before a cycle, then that cycle (R8, R481). -/

namespace Sys2Proof.Machine

/-- R8, R481. A run that has ended takes no further step (R23, R415). -/
def step (s : State) : Host.Outcome State Fault Refusal :=
  match s.outcome with
  | some o => .fault (.runEnded o)
  | none => (boundary s).andThen cycle

/-- The machine with a word, numbered as the opcode table numbers it, as the instruction the next step executes. -/
def State.withFetchWord (s : State) (nbits w : Nat) : State := placeInstruction s nbits w

end Sys2Proof.Machine
end

