-- ==== Sys2Proof/Machine/Image.lean ====
section
/-! DEFINITION. Loading an Intel HEX image before reset (R417, R471, R472, R474). Assumption log entry 9. -/

namespace Sys2Proof.Machine

/-- What the records read so far have set: the memory, the address base (R472 types 02 and 04), whether a segment has been
loaded at an offset (R91), the entry of the last 03 or 05 record, and whether a record 01 has ended the file. -/
structure ImageState where
  mem : Memory
  base : Nat
  offsetLoaded : Bool
  entry : Option Nat
  done : Bool
  deriving DecidableEq, Repr

/-- A record: address offset, type and data bytes. -/
structure HexRecord where
  offset : Nat
  kind : Nat
  data : List Nat
  deriving DecidableEq, Repr

def hexDigit (c : Char) : Option Nat :=
  let n := c.toNat
  if 48 ≤ n ∧ n ≤ 57 then some (n - 48)
  else if 65 ≤ n ∧ n ≤ 70 then some (n - 55)
  else if 97 ≤ n ∧ n ≤ 102 then some (n - 87)
  else none

/-- The bytes written as pairs of hexadecimal digits. -/
def hexBytes : List Char → Option (List Nat)
  | [] => some []
  | [_] => none
  | a :: b :: rest =>
    match hexDigit a, hexDigit b, hexBytes rest with
    | some x, some y, some bs => some ((16 * x + y) :: bs)
    | _, _, _ => none

/-- The value of bytes written most significant first, as the HEX format writes its fields. -/
def beValue (bs : List Nat) : Nat := bs.foldl (fun acc b => 256 * acc + b) 0

/-- A line `:LLAAAATT<data>CC`: the byte count is right and the bytes sum to 0 modulo 256 (R474). -/
def parseRecord (line : List Char) : Option HexRecord :=
  match line with
  | ':' :: digits =>
    match hexBytes digits with
    | some (count :: hi :: lo :: kind :: rest) =>
      if rest.length = count + 1 ∧ (count + hi + lo + kind + rest.sum) % 256 = 0 then
        some ⟨256 * hi + lo, kind, rest.take count⟩
      else none
    | _ => none
  | _ => none

/-- The address is a byte of main memory: inside the window and in no device range (R86). -/
def isMainMemory (cfg : Config) (a : Nat) : Bool :=
  decide (a < 2 ^ cfg.xlen.bits) && (targetAt (BitVec.ofNat 64 a)).isNone && inMainMemory cfg (BitVec.ofNat 64 a) 1

/-- Data bytes from address `a` up; none where one is outside main memory (R472). -/
def loadData (cfg : Config) (m : Memory) (a : Nat) : List Nat → Option Memory
  | [] => some m
  | b :: bs => if isMainMemory cfg a then loadData cfg (m.setByte a (BitVec.ofNat 8 b)) (a + 1) bs else none

/-- The first record of an image: base 0, the standard format's. Entry 9. -/
def ImageState.start : ImageState := ⟨[], 0, false, none, false⟩

/-- A data record at base + offset (R472). Its bytes run on past offset 0xFFFF with no wrap (DESIGN CHOICE, entry 9). Bytes
placed from a base other than 0 are an offset-loaded segment (R91; DESIGN CHOICE, entry 24). -/
def applyData (cfg : Config) (st : ImageState) (r : HexRecord) : Option ImageState :=
  match loadData cfg st.mem (st.base + r.offset) r.data with
  | some m => some { st with mem := m, offsetLoaded := st.offsetLoaded || (st.base != 0 && !r.data.isEmpty) }
  | none => none

/-- One record (R472); an unknown type or a wrong data length makes the image invalid (R474). The address field of a record of
type 01 to 05 is not looked at, so a value other than 0 there is accepted: DESIGN CHOICE, entry 9. -/
def applyRecord (cfg : Config) (st : ImageState) (r : HexRecord) : Option ImageState :=
  match r.kind, r.data.length with
  | 0, _ => applyData cfg st r
  | 1, 0 => some { st with done := true }
  | 2, 2 => some { st with base := 16 * beValue r.data }
  | 3, 4 => some { st with entry := some (16 * beValue (r.data.take 2) + beValue (r.data.drop 2)) }
  | 4, 2 => some { st with base := 65536 * beValue r.data }
  | 5, 4 => some { st with entry := some (beValue r.data) }
  | _, _ => none

/-- The lines of the file in order, up to a record 01. A line with no character is skipped. -/
def applyLines (cfg : Config) (st : ImageState) : List (List Char) → Option ImageState
  | [] => some st
  | line :: rest =>
    if st.done then some st
    else if line.isEmpty then applyLines cfg st rest
    else match parseRecord line with
      | some r =>
        match applyRecord cfg st r with
        | some st' => applyLines cfg st' rest
        | none => none
      | none => none

/-- Cut text into lines at each newline; a carriage return is dropped wherever it stands. The spec does not say what ends a line:
DESIGN CHOICE, entry 9. -/
def textLines : List Char → List (List Char)
  | [] => [[]]
  | c :: rest =>
    if c.toNat = 10 then [] :: textLines rest
    else if c.toNat = 13 then textLines rest
    else match textLines rest with
      | line :: lines => (c :: line) :: lines
      | [] => [[c]]

/-- The parameters of a machine with the image loaded: ENTRY_PC from the last 03 or 05 record (R472), and DMI disabled by an
offset-loaded segment (R91). -/
def ImageState.config (cfg : Config) (st : ImageState) : Config :=
  { cfg with
    entryPc := (st.entry.map (BitVec.ofNat 64)).getD cfg.entryPc
    dmiEnabled := cfg.dmiEnabled && !st.offsetLoaded }

/-- What an image sets (R472); none for an invalid image, which has no run (R417, R474). -/
def loadImage (cfg : Config) (text : String) : Option ImageState := applyLines cfg .start (textLines text.toList)

/-- Load the image, then reset (R471). -/
def State.boot (cfg : Config) (regs : Vector Word 32) (schedule : List (List AgentEvent)) (text : String) : Option State :=
  match loadImage cfg text with
  | some st => some (State.powerOn (st.config cfg) regs st.mem schedule)
  | none => none

end Sys2Proof.Machine
end

