-- ==== Sys2Proof/Safety.lean ====
section
/-! DEFINITION. The terms claims use: parameters that describe a machine, the invariants of a run, and what an instruction
may change. -/

namespace Sys2Proof.Machine

/-! ### Parameters (R9) -/

/-- The parameters describe a machine of the spec: the values that hold an address or a CSR value have XLEN bits, the entry PC
is even (R34), the window holds 0x1000_2000 to 0x1000_2003 and is no larger than the address space (R54, R86), `TOHOST_ADDR`
is in no device range (R83), and the counts are in range (R9, R455). -/
def Config.wf (c : Config) : Bool :=
  decide (c.xlen.Fits c.memBase) && decide (c.xlen.Fits c.entryPc) && decide (c.xlen.Fits c.tohostAddr) &&
    decide (c.xlen.Fits c.irqCause) && c.entryPc &&& 1 == 0 && decide (c.memSize ≤ 2 ^ c.xlen.bits) &&
    inMainMemory c 0x10002000 4 && (targetAt c.tohostAddr).isNone && decide (0 < c.clkPeriod) &&
    decide (0 < c.mtimeTick) && decide (1 ≤ c.robN) && decide (1 ≤ c.sbM) && decide (c.plicNsrc ≤ 1024)

/-! ### Invariants of a run -/

/-- Main memory and the sparse CSRs are in their canonical form. -/
structure Canonical (s : State) : Prop where
  mem : s.mem.wf = true
  csrs : sparseWf s.csr.other = true

/-- An address that is aligned to 2 bytes (R34). -/
def Even (v : Word) : Prop := v &&& 1 = 0

/-- The PC fields of the four latches satisfy `P`. -/
structure LatchPcs (P : Word → Prop) (l : SixLatches) : Prop where
  l1 : P l.l1.pc
  l2 : P l.l2.pc
  l3 : P l.l3.record.pc
  l4 : P l.l4.pc

/-- Every PC the machine holds, and a target waiting in the executor's result, satisfy `P`. -/
structure EveryPc (P : Word → Prop) (s : State) : Prop where
  two : P s.two.pc
  latch : P s.two.latch.pc
  latchNext : P s.two.latchNext.pc
  pcgen : P s.six.pcgenPc
  reg : LatchPcs P s.six.reg
  next : LatchPcs P s.six.next
  target : ∀ t, s.ex.target = some t → P t

/-- The instructions in the 6-stage latches are ones the decoder gives at this XLEN. -/
structure LatchedOpsWf (s : State) : Prop where
  l3 : ∀ i, s.six.reg.l3.record.op = some i → i.wf s.cfg.xlen = true
  l4 : ∀ i, s.six.reg.l4.op = some i → i.wf s.cfg.xlen = true
  next3 : ∀ i, s.six.next.l3.record.op = some i → i.wf s.cfg.xlen = true
  next4 : ∀ i, s.six.next.l4.op = some i → i.wf s.cfg.xlen = true

/-- Every register and every CSR holds XLEN bits (R10, R40). -/
structure FitsXLen (s : State) : Prop where
  regs : ∀ r, s.cfg.xlen.Fits (s.x r)
  csrs : ∀ a, s.cfg.xlen.Fits (s.csr.get a)
  pcs : EveryPc s.cfg.xlen.Fits s

/-- The DMA engine: `control` bit 0 is set exactly while a transfer is in flight (R128, R132, R133), and only a transfer in
flight holds a buffer (R131). -/
structure DmaBusy (s : State) : Prop where
  control : s.dma.control.getLsbD 0 = s.dma.inFlight
  buffer : s.dma.buffer.isSome = true → s.dma.inFlight = true

/-- The invariant of a run: the canonical forms, the alignment and width of every PC, register and CSR, the latched
instructions, the DMA engine's busy bit, and no executor result left over while the run goes on (R56, R500). -/
structure Inv (s : State) : Prop where
  canonical : Canonical s
  even : EveryPc Even s
  ops : LatchedOpsWf s
  fits : FitsXLen s
  dma : DmaBusy s
  idle : s.outcome = none → s.ex = ExecResult.none

/-! ### The lockstep of the 6-stage pipeline (R514, R517, R518) -/

/-- The ring position `k` entries above the head. -/
def State.robPos (k : Nat) (s : State) : Nat := (s.six.head + k) % s.cfg.robN

/-- The lockstep: `waiting` says that the instruction executed in the cycle before waits, ready, at the head of the ROB; the
only other entry is that of the instruction in L4; and the store buffer holds exactly the waiting store, if it is one. -/
structure LockstepAt (waiting : Bool) (s : State) : Prop where
  size : s.six.rob.length = s.cfg.robN
  head : s.six.head < s.cfg.robN
  count : s.six.count = waiting.toNat + s.six.reg.l4.valid.toNat
  tail : s.six.tail = s.robPos s.six.count
  ready : waiting = true → (s.robAt s.six.head).valid = true ∧ (s.robAt s.six.head).ready = true
  inEx : s.six.reg.l4.valid = true → s.six.reg.l4.robIndex = s.robPos waiting.toNat ∧
    (s.robAt s.six.reg.l4.robIndex).valid = true ∧ (s.robAt s.six.reg.l4.robIndex).ready = false ∧
    (s.robAt s.six.reg.l4.robIndex).isStore = s.six.reg.l4.op.any Instr.isStore
  others : ∀ j, (∀ k, k < s.six.count → j ≠ s.robPos k) → (s.robAt j).valid = false
  stores : if waiting && (s.robAt s.six.head).isStore then ∃ e, s.six.sb = [e] ∧ e.robIndex = s.six.head
    else s.six.sb = []

/-- A running 6-stage pipeline in lockstep, with room for two entries. -/
structure Lockstep (s : State) : Prop where
  six : s.cfg.pipe = .sixStage
  room : 2 ≤ s.cfg.robN
  running : s.outcome = none
  idle : s.ex = ExecResult.none
  at' : ∃ waiting, LockstepAt waiting s

/-! ### Values in the spec's notation (R13) -/

/-- The XLEN-bit value congruent to an integer modulo 2^XLEN. -/
def ofIntX (xl : XLen) (z : Int) : Word := (BitVec.ofInt xl.bits z).setWidth 64

/-- The low 32 bits read as a signed, or an unsigned, integer. -/
def signedW (v : Word) : Int := (v.setWidth 32).toInt
def unsignedW (v : Word) : Nat := (v.setWidth 32).toNat

/-- `W(v)`: the value congruent to an integer modulo 2^32, sign-extended (R182). -/
def ofIntW (xl : XLen) (z : Int) : Word := ofIntX xl (BitVec.ofInt 32 z).toInt

/-- The number written in `n` bytes, the first the least significant (R103). -/
def leNumber (byte : Nat → Byte) : Nat → Nat
  | 0 => 0
  | n + 1 => leNumber byte n + (byte n).toNat * 256 ^ n

/-- The number in the `n` bytes of main memory at `a`. -/
def State.memNumber (a : Word) (n : Nat) (s : State) : Nat :=
  leNumber (fun i => s.mem.byte (addrAt s.cfg.xlen a i)) n

/-- A number of `n` bytes read in two's complement. -/
def signedBytes (n v : Nat) : Int := if v < 2 ^ (8 * n - 1) then v else (v : Int) - 2 ^ (8 * n)

/-- Byte `i` of a number. -/
def byteOf (v i : Nat) : Byte := BitVec.ofNat 8 (v / 256 ^ i)

/-- A data access of `n` bytes at `a` goes to main memory and succeeds (R82, R88). -/
def MainMemory (cfg : Config) (a : Word) (n : Nat) : Prop := targetAt a = none ∧ inMainMemory cfg a n = true

/-- The front end moves on by one instruction (R504 to R506): ID decodes L2 into L3, PCGen sends its PC into L1 and advances by
4, modulo 2^XLEN. -/
structure FrontEndAdvances (s t : State) : Prop where
  decoded : s.six.reg.l2.valid = true →
    t.six.reg.l3 = ⟨true, decodeRecord s.cfg.xlen s.six.reg.l2.word s.six.reg.l2.pc⟩
  bubble : s.six.reg.l2.valid = false → t.six.reg.l3.valid = false
  sent : t.six.reg.l1 = ⟨true, s.six.pcgenPc⟩
  pcgen : t.six.pcgenPc = ofIntX s.cfg.xlen (s.six.pcgenPc.toNat + 4)
  regs : t.regs = s.regs
  mem : t.mem = s.mem
  csr : t.csr = s.csr

/-! ### What an instruction changes -/

/-- The executing instruction's ROB slot exists (6-stage). -/
def AtEx (s : State) : Prop := s.cfg.pipe = .sixStage → s.six.reg.l4.robIndex < s.six.rob.length

/-- The general registers: in the 2-stage pipeline the result is in rd, x0 stays 0, and every other register is unchanged;
in the 6-stage pipeline none changes at EX (R31, R491, R515). -/
def RegsAfter (res : Option (Reg × Word)) (s t : State) : Prop :=
  ∀ r, t.x r = match s.cfg.pipe, res with
    | .twoStage, some (rd, v) => if r = rd ∧ r ≠ 0 then v else s.x r
    | _, _ => s.x r

/-- The reorder buffer: in the 6-stage pipeline the result is in the instruction's entry (R502). -/
def RobAfter (res : Option (Reg × Word)) (s t : State) : Prop :=
  t.six.rob.length = s.six.rob.length ∧
    ∀ j, t.robAt j = match s.cfg.pipe, res with
      | .sixStage, some (_, v) => if j = s.six.reg.l4.robIndex then { s.robAt j with result := v } else s.robAt j
      | _, _ => s.robAt j

/-- A store of `n` bytes of the number `v` at `a`. -/
structure StoreOf where
  addr : Word
  size : Nat
  value : Nat

/-- Main memory: in the 2-stage pipeline the stored bytes are written and a DMI invalidation is broadcast (R88, R93), every
other byte is unchanged; a form that stores nothing, and every form in the 6-stage pipeline, changes no byte at EX. -/
def MemAfter (st : Option StoreOf) (s t : State) : Prop :=
  match s.cfg.pipe, st with
  | .twoStage, some w =>
    (∀ i, i < w.size → t.mem.byte (addrAt s.cfg.xlen w.addr i) = byteOf w.value i) ∧
      (∀ b, (∀ i, i < w.size → b ≠ addrAt s.cfg.xlen w.addr i) → t.mem.byte b = s.mem.byte b) ∧ t.dmiInvalidate = true
  | _, _ => (∀ b, t.mem.byte b = s.mem.byte b) ∧ t.dmiInvalidate = s.dmiInvalidate

/-- The store buffer: in the 6-stage pipeline the store is appended (R512). -/
def StoreBufferAfter (st : Option StoreOf) (s t : State) : Prop :=
  t.six.sb = match s.cfg.pipe, st with
    | .sixStage, some w => s.six.sb ++ [⟨true, w.addr, BitVec.ofNat 64 w.value, w.size, s.six.reg.l4.robIndex⟩]
    | _, _ => s.six.sb

/-- What no instruction changes at EX but through a device access: the parameters, the 2-stage latches and PC, interrupt
delivery, counters, DMI descriptor, schedule, the devices and the outcome. -/
structure SameMachine (s t : State) : Prop where
  cfg : t.cfg = s.cfg
  two : t.two = s.two
  six : t.six = { s.six with rob := t.six.rob, sb := t.six.sb }
  irq : t.irq = s.irq
  stats : t.stats = s.stats
  dmi : t.dmi = s.dmi
  schedule : t.schedule = s.schedule
  timer : t.timer = s.timer
  plic : t.plic = s.plic
  dma : t.dma = s.dma
  uart : t.uart = s.uart
  hook : t.hook = s.hook
  outcome : t.outcome = s.outcome

/-- The registers, the reorder buffer, memory and the store buffer after an instruction with the register result `res` and the
store `st`; and the rest of the machine is unchanged. -/
structure Effect (res : Option (Reg × Word)) (st : Option StoreOf) (s t : State) : Prop where
  regs : RegsAfter res s t
  rob : RobAfter res s t
  mem : MemAfter st s t
  sb : StoreBufferAfter st s t
  rest : SameMachine s t

/-- CSRs, reservation, trace stream and free-value counter are unchanged. -/
structure SameSpecial (s t : State) : Prop where
  csr : t.csr = s.csr
  reservation : t.reservation = s.reservation
  trace : t.trace = s.trace
  draws : t.draws = s.draws

/-- An instruction that only computes a register result and falls through (R180). -/
structure OnlyResult (rd : Reg) (v : Word) (s t : State) : Prop where
  effect : Effect (some (rd, v)) none s t
  special : SameSpecial s t
  ex : t.ex = s.ex

/-- An instruction without any effect but the advance to the next one. -/
structure Nothing (s t : State) : Prop where
  effect : Effect none none s t
  special : SameSpecial s t
  ex : t.ex = s.ex

/-- A taken control transfer to `target` (R19, R240). -/
structure Jump (res : Option (Reg × Word)) (target : Word) (s t : State) : Prop where
  effect : Effect res none s t
  special : SameSpecial s t
  ex : t.ex = { s.ex with target := some target }

/-- A store of `n` bytes and nothing else (R256). -/
structure OnlyStore (w : StoreOf) (s t : State) : Prop where
  effect : Effect none (some w) s t
  special : SameSpecial s t
  ex : t.ex = s.ex

/-- An AMO: the register result and the store (R304). -/
structure ResultAndStore (rd : Reg) (v : Word) (w : StoreOf) (s t : State) : Prop where
  effect : Effect (some (rd, v)) (some w) s t
  special : SameSpecial s t
  ex : t.ex = s.ex

/-- The value a CSR instruction finds at `a` (R391): the stored one, or a draw for a counter (R52). -/
def State.csrOld (a : CsrAddr) (s : State) : Word :=
  if isCounter s.cfg.xlen a then s.cfg.xlen.wrap (Config.draw s.draws) else s.csr.get a

/-- What a CSR instruction with `new old` as its write does (R391): rd receives the old value; only the CSR at `a` changes. -/
structure CsrEffect (rd : Reg) (a : CsrAddr) (new : Word → Option Word) (s t : State) : Prop where
  effect : Effect (some (rd, s.cfg.xlen.wrap (s.csrOld a))) none s t
  csrs : ∀ b, t.csr.get b =
    match new (s.csrOld a) with
    | some v => if a = b then s.cfg.xlen.wrap v else s.csr.get b
    | none => s.csr.get b
  draws : t.draws = if isCounter s.cfg.xlen a then s.draws + 1 else s.draws
  reservation : t.reservation = s.reservation
  trace : t.trace = s.trace
  ex : t.ex = s.ex

/-- An AMO on `n` bytes at `a` with the old number `old` and the new one `new` (R304): the old value sign-extended in rd, the
new one stored. -/
def AmoDone (rd : Reg) (a : Word) (n old new : Nat) (s t : State) : Prop :=
  ResultAndStore rd (ofIntX s.cfg.xlen (signedBytes n old)) ⟨a, n, new⟩ s t

/-- An AMO on `n` bytes at `a` completes: the bytes are main memory and not the to-host word. -/
structure AmoReady (a : Word) (n : Nat) (s : State) : Prop where
  atEx : AtEx s
  mem : MainMemory s.cfg a n
  notTohost : a ≠ s.cfg.tohostAddr
  wf : s.mem.wf = true
  size : s.cfg.memSize ≤ 2 ^ s.cfg.xlen.bits

/-- The low `n` bytes of a value as an unsigned number. -/
def lowNumber (n : Nat) (v : Word) : Nat := v.toNat % 2 ^ (8 * n)

/-- The fields of the record that `poll` may change at most: everything else is equal. -/
structure SameButTrap (s t : State) : Prop where
  cfg : t.cfg = s.cfg
  regs : t.regs = s.regs
  reservation : t.reservation = s.reservation
  mem : t.mem = s.mem
  dmi : t.dmi = s.dmi ∧ t.dmiInvalidate = s.dmiInvalidate
  devices : t.timer = s.timer ∧ t.plic = s.plic ∧ t.dma = s.dma ∧ t.hook = s.hook
  streams : t.trace = s.trace ∧ t.uart = s.uart
  rest : t.ex = s.ex ∧ t.outcome = s.outcome ∧ t.draws = s.draws ∧ t.schedule = s.schedule

end Sys2Proof.Machine
end

