-- ==== Sys2Proof/Certificates/Slice0/Obligations.lean ====
section
/-! DEFINITION. The statements for the provers. -/

open Sys2Proof Sys2Proof.Machine

/-! ### Reset, decoding, and how a step runs an instruction -/

/-- R70: the reset values the spec gives, for every choice of the parameters, of the registers' draws and of the image; a read
of a counter is a draw, the free value of log entry 3. -/
def Obligations.ResetLeavesTheListedValues : Prop :=
  ∀ (cfg : Config) (regs : Vector Word 32) (mem : Memory) (sched : List (List AgentEvent)),
    let s := State.powerOn cfg regs mem sched
    s.x 0 = 0 ∧ (∀ r : Reg, r ≠ 0 → s.x r = regs[r.toNat]) ∧
    s.two.pc = cfg.entryPc ∧ s.six.pcgenPc = cfg.entryPc ∧
    (∀ a : CsrAddr, isCounter cfg.xlen a = false → s.csr.get a = 0) ∧
    (∀ a : CsrAddr, isCounter cfg.xlen a = true → (s.readCsr a).1 = cfg.xlen.wrap (Config.draw s.draws)) ∧
    (s.two.latch.valid = false ∧ s.two.latchNext.valid = false ∧ s.two.flush = false) ∧
    (s.six.reg.l1.valid = false ∧ s.six.reg.l2.valid = false ∧ s.six.reg.l3.valid = false ∧
      s.six.reg.l4.valid = false) ∧
    (s.six.next.l1.valid = false ∧ s.six.next.l2.valid = false ∧ s.six.next.l3.valid = false ∧
      s.six.next.l4.valid = false) ∧
    s.ex.target = none ∧
    (s.six.head = 0 ∧ s.six.tail = 0 ∧ s.six.count = 0 ∧ (∀ j, (s.robAt j).valid = false) ∧ s.six.sb = []) ∧
    (∀ r, s.busy r = false) ∧
    s.stats = ⟨0, 0, 0, 0, 0, 0⟩ ∧ s.irq = ⟨false, 0, false⟩ ∧ s.dmi = none ∧ s.reservation = none ∧
    s.outcome = none ∧ s.mem = mem ∧
    s.timer.mtime = 0 ∧ s.timer.mtimecmp = BitVec.allOnes 64 ∧
    (∀ id, s.plic.prio id = 0 ∧ sourceBit s.plic.pending id = false ∧ sourceBit s.plic.enable id = false) ∧
    s.plic.threshold = 0 ∧ s.plic.claimed = 0 ∧
    s.dma.src = 0 ∧ s.dma.dst = 0 ∧ s.dma.len = 0 ∧ s.dma.control = 0 ∧ s.dma.inFlight = false ∧
    s.trace = [] ∧ s.uart = [] ∧ s.hook = ⟨0, 0, 0⟩ ∧ s.mie = false

/-- A few words written out from the spec's encodings decode to the instructions they stand for. -/
def Obligations.WordsFromTheSpecDecode : Prop :=
  decode .rv32 0x00700093 = .ok (.addi 1 0 7) ∧ decode .rv32 0x002081B3 = .ok (.add 3 1 2) ∧
  decode .rv32 0x00000263 = .ok (.beq 0 0 4) ∧ decode .rv32 0xFE0318E3 = .ok (.bne 6 0 (-16)) ∧
  decode .rv32 0x0062A023 = .ok (.sw 5 6 0) ∧ decode .rv32 0x0002A383 = .ok (.lw 7 5 0) ∧
  decode .rv32 0x02B54633 = .ok (.div 12 10 11) ∧ decode .rv32 0x340110F3 = .ok (.csrrw 1 0x340 2) ∧
  decode .rv32 0x014000EF = .ok (.jal 1 20) ∧ decode .rv32 0x30200073 = .ok .mret ∧
  decode .rv32 0x00004515 = .ok (.cLi 10 5) ∧ decode .rv64 0x00002085 = .ok (.cAddiw 1 1) ∧
  decode .rv32 0x00002001 = .ok (.cJal 0) ∧ decode .rv32 0x00000000 = .error .unknownCompressed ∧
  decode .rv32 0x002081BB = .error .unknownWord ∧ decode .rv64 0x002081BB = .ok (.addw 3 1 2)

/-- Decoding the encoding of a well-formed instruction gives it back, with every operand (R142 to R154, R333 to R366). -/
def Obligations.DecodeOfEncode : Prop :=
  ∀ (xl : XLen) (i : Instr), i.wf xl = true → decode xl (encode i) = .ok i

/-- A word that decodes is the encoding of a well-formed instruction: whole when it is 32 bits long, and in its low half when
it is compressed, whose upper half belongs to the next instruction (R141). -/
def Obligations.EncodeOfDecode : Prop :=
  ∀ (xl : XLen) (w : BitVec 32) (i : Instr), decode xl w = .ok i →
    i.wf xl = true ∧
    (isCompressedWord w = false → encode i = w) ∧
    (isCompressedWord w = true → encode i = (w.setWidth 16).setWidth 32)

/-- The 2-stage step runs the decoded instruction: when the boundary goes on with `b`, no interrupt latency is billed after
the poll, and `latch_next` holds a word that decodes to `i`, the step is `exec i` with the latch moved, then the redirect and
the count of retirement, the fetch, and the count of the cycle (R481, R486). -/
def Obligations.TwoStageStepRunsTheDecodedInstruction : Prop :=
  ∀ (s b : State) (i : Instr),
    s.cfg.pipe = .twoStage → s.outcome = none → boundary s = .next b → b.outcome = none → b.cfg = s.cfg →
    (poll b).irq.stall = 0 → (poll b).two.latchNext.valid = true →
    decode s.cfg.xlen (poll b).two.latchNext.word = .ok i →
    step s =
      match exec i (twoAdvance (poll b)) with
      | .next t => ((twoAfterExecute t).andThen (twoIf (poll b).mem)).andThen fun u => .next (countCycle u)
      | .fault f => .fault f
      | .refused r => .refused r

/-- The 6-stage step runs the instruction in L4: after Commit answers `c` and the run goes on, a 32-bit instruction in L4 is
run by `exec`, its ROB entry is completed, and the front end follows (R481, R500, R502). -/
def Obligations.SixStageStepRunsTheIssuedInstruction : Prop :=
  ∀ (s b c : State) (i : Instr),
    s.cfg.pipe = .sixStage → s.outcome = none → boundary s = .next b → b.outcome = none → b.cfg = s.cfg →
    (poll b).irq.stall = 0 → commit (poll b) = .next c → c.outcome = none →
    c.six.reg.l4.valid = true → c.six.reg.l4.op = some i → Instr.isCompressed i = false →
    step s = ((Result.andThen (exec i c) sixAfterExecute).andThen sixFrontEnd).andThen fun u => .next (countCycle u)

/-- R160: a word of no row executes as a NOP: in the 2-stage pipeline EX only counts it as retired, and in the 6-stage pipeline
EX only completes its ROB entry, whose destination is x0 (the model's reading, log entry 12). -/
def Obligations.UnknownWordsExecuteAsNops : Prop :=
  (∀ (s : State) (e : Reject), s.two.latch.valid = true → decode s.cfg.xlen s.two.latch.word = .error e →
    s.ex = ExecResult.none → twoEx s = .next s.countRetired) ∧
  (∀ (s : State), s.six.reg.l4.valid = true → s.six.reg.l4.op = none → s.ex = ExecResult.none → s.outcome = none →
    sixEx s = .next (completeRob s)) ∧
  (∀ (xl : XLen) (w : BitVec 32) (pc : Word) (e : Reject), decode xl w = .error e →
    (decodeRecord xl w pc).op = none ∧ (decodeRecord xl w pc).cls = .unknown ∧ (decodeRecord xl w pc).destReg = 0)

/-- The steps that do no stage work: a run that has ended takes no further step (R23, R415); a host stop at a boundary ends the
run in HostStopped before any cycle and changes no other state but the schedule, the model's own field of log entry 4 (R414); a cycle with interrupt latency to
bill only counts down the latency and counts a stall (R481). -/
def Obligations.StepsWithoutStageWork : Prop :=
  (∀ (s : State) (o : RunOutcome), s.outcome = some o → step s = .fault (.runEnded o)) ∧
  (∀ (s : State) (es : List AgentEvent) (rest : List (List AgentEvent)), s.outcome = none →
    s.schedule = (.hostStop :: es) :: rest →
    step s = .next { s with outcome := some .hostStopped, schedule := rest }) ∧
  (∀ (s b : State), s.outcome = none → boundary s = .next b → b.outcome = none → 0 < (poll b).irq.stall →
    step s = .next { poll b with
      irq := { (poll b).irq with stall := (poll b).irq.stall - 1 }
      stats := { (poll b).stats with stalls := (poll b).stats.stalls + 1, cycles := (poll b).stats.cycles + 1 } })

/-- R31: x0 reads as 0 and ignores writes; any other register reads back what is written, modulo 2^XLEN, and a write changes no
other register. -/
def Obligations.RegisterZeroIgnoresWrites : Prop :=
  ∀ (s : State) (rd r : Reg) (v : Word), s.x 0 = 0 ∧ s.setX 0 v = s ∧
    (s.setX rd v).x r = if r = rd ∧ r ≠ 0 then s.cfg.xlen.wrap v else s.x r

/-! ### Invariants of every step -/

/-- The machine right after reset meets the invariant. x1 to x31 and the open parameters stand at the values the model chose (log
entries 1 and 2). -/
def Obligations.ResetMeetsTheInvariant : Prop := Inv State.reset

/-- Every step keeps the invariant, and the parameters of the machine (R9, R10, R34, R37, R128). -/
def Obligations.EveryStepKeepsTheInvariant : Prop :=
  ∀ (s t : State), Inv s → step s = .next t → Inv t ∧ t.cfg = s.cfg

/-- Every step of a running 6-stage pipeline keeps the lockstep (R514, R517, R518). -/
def Obligations.SixStageStepsKeepTheLockstep : Prop :=
  ∀ (s t : State), Lockstep s → step s = .next t → t.outcome = none → Lockstep t

/-- R518: an instruction that executes at EX commits in the next cycle: after a cycle that does stage work and starts with an
instruction in L4 the ROB head is that instruction's entry, ready, and waits for Commit. -/
def Obligations.AnExecutedInstructionWaitsAtTheRobHead : Prop :=
  ∀ (s t b : State), Lockstep s → boundary s = .next b → (poll b).irq.stall = 0 → s.six.reg.l4.valid = true →
    step s = .next t → t.outcome = none →
    LockstepAt true t ∧ t.six.head = s.six.reg.l4.robIndex

/-! ### Integer computation (40_int_compute.md) -/

/-- LUI, AUIPC and the register-immediate instructions that are no shifts (R183 to R190): the result in rd, and nothing else. -/
def Obligations.ImmediateInstructionsCompute : Prop :=
  ∀ (s : State) (rd rs1 : Reg) (imm20 : BitVec 20) (imm : BitVec 12), AtEx s →
    let xl := s.cfg.xlen
    let a := s.src1 rs1
    (∃ t, exec (.lui rd imm20) s = .next t ∧ OnlyResult rd (ofIntX xl ((imm20 ++ 0#12).toInt)) s t) ∧
    (∃ t, exec (.auipc rd imm20) s = .next t ∧
      OnlyResult rd (ofIntX xl (s.instrPc.toNat + (imm20 ++ 0#12).toInt)) s t) ∧
    (∃ t, exec (.addi rd rs1 imm) s = .next t ∧ OnlyResult rd (ofIntX xl (signed xl a + imm.toInt)) s t) ∧
    (∃ t, exec (.slti rd rs1 imm) s = .next t ∧ OnlyResult rd (if signed xl a < imm.toInt then 1 else 0) s t) ∧
    (∃ t, exec (.sltiu rd rs1 imm) s = .next t ∧
      OnlyResult rd (if unsigned xl a < unsigned xl (ofIntX xl imm.toInt) then 1 else 0) s t) ∧
    (∃ t, exec (.xori rd rs1 imm) s = .next t ∧ OnlyResult rd (xl.wrap (a ^^^ ofIntX xl imm.toInt)) s t) ∧
    (∃ t, exec (.ori rd rs1 imm) s = .next t ∧ OnlyResult rd (xl.wrap (a ||| ofIntX xl imm.toInt)) s t) ∧
    (∃ t, exec (.andi rd rs1 imm) s = .next t ∧ OnlyResult rd (xl.wrap (a &&& ofIntX xl imm.toInt)) s t)

/-- The shifts (R181, R191 to R193, R196, R200, R201): an immediate amount is below XLEN, a register amount is taken modulo
XLEN; a right shift divides, rounding down, the unsigned or the signed value. -/
def Obligations.ShiftsCompute : Prop :=
  ∀ (s : State) (rd rs1 rs2 : Reg) (shamt : BitVec 6), AtEx s → shamt.toNat < s.cfg.xlen.bits →
    let xl := s.cfg.xlen
    let a := s.src1 rs1
    let n := unsigned xl (s.src2 rs2) % xl.bits
    (∃ t, exec (.slli rd rs1 shamt) s = .next t ∧ OnlyResult rd (ofIntX xl (unsigned xl a * 2 ^ shamt.toNat)) s t) ∧
    (∃ t, exec (.srli rd rs1 shamt) s = .next t ∧ OnlyResult rd (ofIntX xl (unsigned xl a / 2 ^ shamt.toNat)) s t) ∧
    (∃ t, exec (.srai rd rs1 shamt) s = .next t ∧ OnlyResult rd (ofIntX xl (signed xl a / 2 ^ shamt.toNat)) s t) ∧
    (∃ t, exec (.sll rd rs1 rs2) s = .next t ∧ OnlyResult rd (ofIntX xl (unsigned xl a * 2 ^ n)) s t) ∧
    (∃ t, exec (.srl rd rs1 rs2) s = .next t ∧ OnlyResult rd (ofIntX xl (unsigned xl a / 2 ^ n)) s t) ∧
    (∃ t, exec (.sra rd rs1 rs2) s = .next t ∧ OnlyResult rd (ofIntX xl (signed xl a / 2 ^ n)) s t)

/-- The register-register instructions that are no shifts (R194, R195, R197 to R199, R202, R203). -/
def Obligations.RegisterInstructionsCompute : Prop :=
  ∀ (s : State) (rd rs1 rs2 : Reg), AtEx s →
    let xl := s.cfg.xlen
    let a := s.src1 rs1
    let b := s.src2 rs2
    (∃ t, exec (.add rd rs1 rs2) s = .next t ∧ OnlyResult rd (ofIntX xl (signed xl a + signed xl b)) s t) ∧
    (∃ t, exec (.sub rd rs1 rs2) s = .next t ∧ OnlyResult rd (ofIntX xl (signed xl a - signed xl b)) s t) ∧
    (∃ t, exec (.slt rd rs1 rs2) s = .next t ∧ OnlyResult rd (if signed xl a < signed xl b then 1 else 0) s t) ∧
    (∃ t, exec (.sltu rd rs1 rs2) s = .next t ∧ OnlyResult rd (if unsigned xl a < unsigned xl b then 1 else 0) s t) ∧
    (∃ t, exec (.xor rd rs1 rs2) s = .next t ∧ OnlyResult rd (xl.wrap (a ^^^ b)) s t) ∧
    (∃ t, exec (.or rd rs1 rs2) s = .next t ∧ OnlyResult rd (xl.wrap (a ||| b)) s t) ∧
    (∃ t, exec (.and rd rs1 rs2) s = .next t ∧ OnlyResult rd (xl.wrap (a &&& b)) s t)

/-- The word instructions of RV64 (R182, R204 to R212): the low 32 bits of the operands, the result sign-extended. -/
def Obligations.WordInstructionsCompute : Prop :=
  ∀ (s : State) (rd rs1 rs2 : Reg) (imm : BitVec 12) (shamt : BitVec 5), AtEx s → s.cfg.xlen = .rv64 →
    let xl := s.cfg.xlen
    let a := s.src1 rs1
    let b := s.src2 rs2
    let n := unsignedW b % 32
    (∃ t, exec (.addiw rd rs1 imm) s = .next t ∧ OnlyResult rd (ofIntW xl (signedW a + imm.toInt)) s t) ∧
    (∃ t, exec (.slliw rd rs1 shamt) s = .next t ∧ OnlyResult rd (ofIntW xl (unsignedW a * 2 ^ shamt.toNat)) s t) ∧
    (∃ t, exec (.srliw rd rs1 shamt) s = .next t ∧ OnlyResult rd (ofIntW xl (unsignedW a / 2 ^ shamt.toNat)) s t) ∧
    (∃ t, exec (.sraiw rd rs1 shamt) s = .next t ∧ OnlyResult rd (ofIntW xl (signedW a / 2 ^ shamt.toNat)) s t) ∧
    (∃ t, exec (.addw rd rs1 rs2) s = .next t ∧ OnlyResult rd (ofIntW xl (signedW a + signedW b)) s t) ∧
    (∃ t, exec (.subw rd rs1 rs2) s = .next t ∧ OnlyResult rd (ofIntW xl (signedW a - signedW b)) s t) ∧
    (∃ t, exec (.sllw rd rs1 rs2) s = .next t ∧ OnlyResult rd (ofIntW xl (unsignedW a * 2 ^ n)) s t) ∧
    (∃ t, exec (.srlw rd rs1 rs2) s = .next t ∧ OnlyResult rd (ofIntW xl (unsignedW a / 2 ^ n)) s t) ∧
    (∃ t, exec (.sraw rd rs1 rs2) s = .next t ∧ OnlyResult rd (ofIntW xl (signedW a / 2 ^ n)) s t)

/-! ### Multiply and divide (43_muldiv.md) -/

/-- MUL, MULH, MULHSU, MULHU (R277 to R280): the low XLEN bits of the product, or the product divided by 2^XLEN, rounded down. -/
def Obligations.MultiplicationsCompute : Prop :=
  ∀ (s : State) (rd rs1 rs2 : Reg), AtEx s →
    let xl := s.cfg.xlen
    let a := s.src1 rs1
    let b := s.src2 rs2
    (∃ t, exec (.mul rd rs1 rs2) s = .next t ∧ OnlyResult rd (ofIntX xl (unsigned xl a * unsigned xl b)) s t) ∧
    (∃ t, exec (.mulh rd rs1 rs2) s = .next t ∧
      OnlyResult rd (ofIntX xl (signed xl a * signed xl b / 2 ^ xl.bits)) s t) ∧
    (∃ t, exec (.mulhsu rd rs1 rs2) s = .next t ∧
      OnlyResult rd (ofIntX xl (signed xl a * unsigned xl b / 2 ^ xl.bits)) s t) ∧
    (∃ t, exec (.mulhu rd rs1 rs2) s = .next t ∧
      OnlyResult rd (ofIntX xl (unsigned xl a * unsigned xl b / 2 ^ xl.bits)) s t)

/-- DIV, DIVU, REM, REMU (R281 to R284), the division by zero and the overflow included; no operand traps. -/
def Obligations.DivisionsCompute : Prop :=
  ∀ (s : State) (rd rs1 rs2 : Reg), AtEx s →
    let xl := s.cfg.xlen
    let a := s.src1 rs1
    let b := s.src2 rs2
    let overflow := signed xl a = -(2 ^ (xl.bits - 1)) ∧ signed xl b = -1
    (∃ t, exec (.div rd rs1 rs2) s = .next t ∧
      OnlyResult rd (if unsigned xl b = 0 then ofIntX xl (-1) else if overflow then ofIntX xl (2 ^ (xl.bits - 1))
        else ofIntX xl ((signed xl a).tdiv (signed xl b))) s t) ∧
    (∃ t, exec (.divu rd rs1 rs2) s = .next t ∧
      OnlyResult rd (if unsigned xl b = 0 then ofIntX xl (-1)
        else ofIntX xl (unsigned xl a / unsigned xl b : Nat)) s t) ∧
    (∃ t, exec (.rem rd rs1 rs2) s = .next t ∧
      OnlyResult rd (if unsigned xl b = 0 then ofIntX xl (signed xl a) else if overflow then 0
        else ofIntX xl ((signed xl a).tmod (signed xl b))) s t) ∧
    (∃ t, exec (.remu rd rs1 rs2) s = .next t ∧
      OnlyResult rd (if unsigned xl b = 0 then ofIntX xl (unsigned xl a)
        else ofIntX xl (unsigned xl a % unsigned xl b : Nat)) s t)

/-- MULW, DIVW, DIVUW, REMW, REMUW (R285 to R289). -/
def Obligations.WordMultiplyDivideCompute : Prop :=
  ∀ (s : State) (rd rs1 rs2 : Reg), AtEx s → s.cfg.xlen = .rv64 →
    let xl := s.cfg.xlen
    let a := s.src1 rs1
    let b := s.src2 rs2
    let overflow := signedW a = -(2 ^ 31) ∧ signedW b = -1
    (∃ t, exec (.mulw rd rs1 rs2) s = .next t ∧ OnlyResult rd (ofIntW xl (unsignedW a * unsignedW b)) s t) ∧
    (∃ t, exec (.divw rd rs1 rs2) s = .next t ∧
      OnlyResult rd (if unsignedW b = 0 then ofIntW xl (-1) else if overflow then ofIntW xl (-(2 ^ 31))
        else ofIntW xl ((signedW a).tdiv (signedW b))) s t) ∧
    (∃ t, exec (.divuw rd rs1 rs2) s = .next t ∧
      OnlyResult rd (if unsignedW b = 0 then ofIntW xl (-1) else ofIntW xl (unsignedW a / unsignedW b : Nat)) s t) ∧
    (∃ t, exec (.remw rd rs1 rs2) s = .next t ∧
      OnlyResult rd (if unsignedW b = 0 then ofIntW xl (signedW a) else if overflow then 0
        else ofIntW xl ((signedW a).tmod (signedW b))) s t) ∧
    (∃ t, exec (.remuw rd rs1 rs2) s = .next t ∧
      OnlyResult rd (if unsignedW b = 0 then ofIntW xl (signedW a) else ofIntW xl (unsignedW a % unsignedW b : Nat)) s t)

/-! ### Control transfer (41_control.md) -/

/-- The six conditional branches (R240, R244 to R249): taken, a transfer to pc + offset; not taken, nothing. -/
def Obligations.BranchesTransferOnTheirCondition : Prop :=
  ∀ (s : State) (rs1 rs2 : Reg) (off : BitVec 13), AtEx s →
    let xl := s.cfg.xlen
    let a := s.src1 rs1
    let b := s.src2 rs2
    let target := ofIntX xl (s.instrPc.toNat + off.toInt)
    (∃ t, exec (.beq rs1 rs2 off) s = .next t ∧
      if unsigned xl a = unsigned xl b then Jump none target s t else Nothing s t) ∧
    (∃ t, exec (.bne rs1 rs2 off) s = .next t ∧
      if unsigned xl a ≠ unsigned xl b then Jump none target s t else Nothing s t) ∧
    (∃ t, exec (.blt rs1 rs2 off) s = .next t ∧
      if signed xl a < signed xl b then Jump none target s t else Nothing s t) ∧
    (∃ t, exec (.bge rs1 rs2 off) s = .next t ∧
      if signed xl b ≤ signed xl a then Jump none target s t else Nothing s t) ∧
    (∃ t, exec (.bltu rs1 rs2 off) s = .next t ∧
      if unsigned xl a < unsigned xl b then Jump none target s t else Nothing s t) ∧
    (∃ t, exec (.bgeu rs1 rs2 off) s = .next t ∧
      if unsigned xl b ≤ unsigned xl a then Jump none target s t else Nothing s t)

/-- JAL and JALR (R250, R251): the link pc + 4, and a transfer to a target computed before rd is written. -/
def Obligations.JumpsLinkAndTransfer : Prop :=
  ∀ (s : State) (rd rs1 : Reg) (off : BitVec 21) (imm : BitVec 12), AtEx s →
    let xl := s.cfg.xlen
    let link := ofIntX xl (s.instrPc.toNat + 4)
    (∃ t, exec (.jal rd off) s = .next t ∧ Jump (some (rd, link)) (ofIntX xl (s.instrPc.toNat + off.toInt)) s t) ∧
    (∃ t, exec (.jalr rd rs1 imm) s = .next t ∧
      Jump (some (rd, link)) (ofIntX xl (2 * ((signed xl (s.src1 rs1) + imm.toInt) / 2))) s t)

/-- A taken transfer. In the 2-stage pipeline (R486, R489): after the cycle the fetch PC is the target, `latch_next` is a
bubble, `flush` is clear, and one flush and one control hazard are counted. In the 6-stage pipeline, and for a stop at EX
too (R399, R503 to R508): nothing is issued, L2, L3 and L4 receive bubbles, L1 is invalid, nothing is fetched, and PCGen
takes the target; with a stop and no target it holds. -/
def Obligations.TransfersRedirectTheFetch : Prop :=
  (∀ (s t : State) (before : Memory) (target : Word), t.ex.target = some target → t.ex.stop = none → t.outcome = none →
    s.two.latch.valid = true → executeWord s.two.latch.word s = .next t →
    ∃ u, (twoEx s).andThen (twoIf before) = .next u ∧ u.two.pc = target ∧ u.two.latchNext.valid = false ∧ u.two.flush = false ∧
      u.stats.flushes = t.stats.flushes + 1 ∧ u.stats.controlHazards = t.stats.controlHazards + 1 ∧
      u.stats.retired = t.stats.retired + 1 ∧ u.ex = ExecResult.none ∧ u.regs = t.regs ∧ u.csr = t.csr ∧ u.mem = t.mem) ∧
  (∀ (s : State), s.ex.target.isSome = true ∨ s.ex.stop.isSome = true →
    ∃ u, sixFrontEnd s = .next u ∧
      u.six.reg.l1.valid = false ∧ u.six.reg.l2.valid = false ∧ u.six.reg.l3.valid = false ∧
      u.six.reg.l4.valid = false ∧ u.six.pcgenPc = s.ex.target.getD s.six.pcgenPc ∧
      u.six.rob = s.six.rob ∧ u.six.count = s.six.count ∧ u.six.tail = s.six.tail ∧ u.ex = ExecResult.none ∧
      u.regs = s.regs ∧ u.mem = s.mem ∧ u.csr = s.csr ∧ u.stats = s.stats ∧ u.dmi = s.dmi)

/-- The fetch stages: a fetch in the 2-stage pipeline advances the fetch PC by 2 or 4, modulo 2^XLEN (R35, R36, R486),
and passes on the fetched word, or by the parameter of log entry 23 the word of main memory as it was before the cycle's EX; while a
DMA transfer is in flight IF fetches nothing: it holds the fetch PC, sends a bubble on, and counts a stall, and the 6-stage
IF also holds L1 (R95, R490, R506). In the 6-stage pipeline, when nothing stalls, ID puts the record of L2 in L3, IF the word
fetched at L1's pc in L2, and PCGen its PC in L1, advancing by 4 (R504 to R506); a stall of IS holds L3, L2, L1 and the
PC, and sends a bubble into L4 (R507). -/
def Obligations.FetchAdvancesOrStalls : Prop :=
  (∀ (s u : State) (before : Memory) (w : BitVec 32), s.two.flush = false → s.dma.inFlight = false →
    fetch s.two.pc s = .ok w u →
    let seen := if s.cfg.oldWordAfterStore then
      BitVec.ofNat 32 (leNumber (fun i => before.byte (addrAt s.cfg.xlen s.two.pc i)) 4) else w
    ∃ t, twoIf before s = .next t ∧ t.two.latchNext = ⟨true, s.two.pc, seen⟩ ∧
      t.two.pc = ofIntX s.cfg.xlen (s.two.pc.toNat + if isCompressedWord seen then 2 else 4) ∧
      t.regs = s.regs ∧ t.mem = s.mem ∧ t.csr = s.csr) ∧
  (∀ (s : State), s.dma.inFlight = true →
    (s.two.flush = false → ∀ before, ∃ t, twoIf before s = .next t ∧ t.two.pc = s.two.pc ∧ t.two.latchNext.valid = false ∧
      t.stats.stalls = s.stats.stalls + 1 ∧ t.stats.retired = s.stats.retired ∧ t.mem = s.mem ∧ t.regs = s.regs) ∧
    (s.ex = ExecResult.none → (sixIs s).2 = false →
      ∃ t, sixFrontEnd s = .next t ∧ t.six.pcgenPc = s.six.pcgenPc ∧ t.six.reg.l1 = s.six.reg.l1 ∧
        t.six.reg.l2.valid = false ∧ t.stats.stalls = s.stats.stalls + 1 ∧ t.mem = s.mem ∧ t.regs = s.regs)) ∧
  (∀ (s : State), s.ex = ExecResult.none → s.dma.inFlight = false → (sixIs s).2 = false →
    (∀ (w : BitVec 32) (u : State), s.six.reg.l1.valid = true → fetch s.six.reg.l1.pc s = .ok w u →
      ∃ t, sixFrontEnd s = .next t ∧ t.six.reg.l2 = ⟨true, s.six.reg.l1.pc, w⟩ ∧ FrontEndAdvances s t) ∧
    (s.six.reg.l1.valid = false →
      ∃ t, sixFrontEnd s = .next t ∧ t.six.reg.l2.valid = false ∧ FrontEndAdvances s t)) ∧
  (∀ (s : State), s.ex = ExecResult.none → (sixIs s).2 = true →
    ∃ t, sixFrontEnd s = .next t ∧ t.six.reg.l1 = s.six.reg.l1 ∧ t.six.reg.l2 = s.six.reg.l2 ∧
      t.six.reg.l3 = s.six.reg.l3 ∧ t.six.reg.l4.valid = false ∧ t.six.pcgenPc = s.six.pcgenPc ∧ t.mem = s.mem ∧
      t.regs = s.regs ∧ t.csr = s.csr)

/-! ### Loads and stores (42_loadstore.md) -/

/-- Loads from main memory (R255, R257, R259 to R265): the little-endian number of the bytes at the effective address, sign-
or zero-extended, aligned or not, in rd; no byte of memory changes. -/
def Obligations.LoadsReadMainMemory : Prop :=
  ∀ (s : State) (rd rs1 : Reg) (imm : BitVec 12), AtEx s →
    let xl := s.cfg.xlen
    let ea := s.ea rs1 (xl.sext imm)
    (MainMemory s.cfg ea 1 → ∃ t, exec (.lb rd rs1 imm) s = .next t ∧
      OnlyResult rd (ofIntX xl (signedBytes 1 (s.memNumber ea 1))) s t) ∧
    (MainMemory s.cfg ea 2 → ∃ t, exec (.lh rd rs1 imm) s = .next t ∧
      OnlyResult rd (ofIntX xl (signedBytes 2 (s.memNumber ea 2))) s t) ∧
    (MainMemory s.cfg ea 4 → ∃ t, exec (.lw rd rs1 imm) s = .next t ∧
      OnlyResult rd (ofIntX xl (signedBytes 4 (s.memNumber ea 4))) s t) ∧
    (MainMemory s.cfg ea 1 → ∃ t, exec (.lbu rd rs1 imm) s = .next t ∧
      OnlyResult rd (ofIntX xl (s.memNumber ea 1)) s t) ∧
    (MainMemory s.cfg ea 2 → ∃ t, exec (.lhu rd rs1 imm) s = .next t ∧
      OnlyResult rd (ofIntX xl (s.memNumber ea 2)) s t) ∧
    (MainMemory s.cfg ea 4 → ∃ t, exec (.lwu rd rs1 imm) s = .next t ∧
      OnlyResult rd (ofIntX xl (s.memNumber ea 4)) s t) ∧
    (MainMemory s.cfg ea 8 → ∃ t, exec (.ld rd rs1 imm) s = .next t ∧
      OnlyResult rd (ofIntX xl (s.memNumber ea 8)) s t)

/-- Stores to main memory (R256, R266 to R269): at EX of the 2-stage pipeline the low bytes of x[rs2] are written, little-
endian, at the effective address, and every other byte reads as before; in the 6-stage pipeline the store enters the store
buffer and no byte changes. No register is written. -/
def Obligations.StoresWriteMainMemory : Prop :=
  ∀ (s : State) (rs1 rs2 : Reg) (imm : BitVec 12), s.mem.wf = true →
    let ea := s.ea rs1 (s.cfg.xlen.sext imm)
    ea ≠ s.cfg.tohostAddr →
    let v := s.src2 rs2
    (MainMemory s.cfg ea 1 → ∃ t, exec (.sb rs1 rs2 imm) s = .next t ∧ OnlyStore ⟨ea, 1, lowNumber 1 v⟩ s t) ∧
    (MainMemory s.cfg ea 2 → ∃ t, exec (.sh rs1 rs2 imm) s = .next t ∧ OnlyStore ⟨ea, 2, lowNumber 2 v⟩ s t) ∧
    (MainMemory s.cfg ea 4 → ∃ t, exec (.sw rs1 rs2 imm) s = .next t ∧ OnlyStore ⟨ea, 4, lowNumber 4 v⟩ s t) ∧
    (MainMemory s.cfg ea 8 → ∃ t, exec (.sd rs1 rs2 imm) s = .next t ∧ OnlyStore ⟨ea, 8, lowNumber 8 v⟩ s t)

/-- Commit retires the ready head of the ROB (R501, R512, R515). A store leaves the store buffer, its bytes are written to main
memory and no other byte changes, and the destination register of an AMO or a successful SC is written in the same commit
(R301); any other entry writes its destination register and no other, and nothing else of the architectural state
changes. -/
def Obligations.CommitRetiresTheHead : Prop :=
  (∀ (s : State) (e : SbEntry) (rest : List SbEntry),
    s.six.count > 0 → (s.robAt s.six.head).ready = true → (s.robAt s.six.head).exception = none →
    (s.robAt s.six.head).isStore = true → s.six.sb = e :: rest → e.size ∈ [1, 2, 4, 8] →
    MainMemory s.cfg e.address e.size → e.address ≠ s.cfg.tohostAddr → s.mem.wf = true →
    ∃ t, commit s = .next t ∧
      (∀ i, i < e.size → t.mem.byte (addrAt s.cfg.xlen e.address i) = byteOf e.data.toNat i) ∧
      (∀ b, (∀ i, i < e.size → b ≠ addrAt s.cfg.xlen e.address i) → t.mem.byte b = s.mem.byte b) ∧
      t.six.sb = rest ∧ t.six.count = s.six.count - 1 ∧ t.six.head = (s.six.head + 1) % s.cfg.robN ∧
      (∀ r, t.x r = if r = (s.robAt s.six.head).destReg ∧ r ≠ 0 then s.cfg.xlen.wrap (s.robAt s.six.head).result
        else s.x r) ∧
      (t.robAt s.six.head).valid = false ∧ (∀ j, j ≠ s.six.head → t.robAt j = s.robAt j) ∧
      t.stats.retired = s.stats.retired + 1 ∧ t.csr = s.csr ∧ t.outcome = s.outcome ∧
      t.reservation = s.reservation) ∧
  (∀ (s : State), s.six.count > 0 → (s.robAt s.six.head).ready = true → (s.robAt s.six.head).exception = none →
    (s.robAt s.six.head).isStore = false →
    ∃ t, commit s = .next t ∧
      (∀ r, t.x r = if r = (s.robAt s.six.head).destReg ∧ r ≠ 0 then s.cfg.xlen.wrap (s.robAt s.six.head).result
        else s.x r) ∧
      t.six.count = s.six.count - 1 ∧ t.six.head = (s.six.head + 1) % s.cfg.robN ∧ t.six.tail = s.six.tail ∧
      (t.robAt s.six.head).valid = false ∧ (∀ j, j ≠ s.six.head → t.robAt j = s.robAt j) ∧
      t.stats.retired = s.stats.retired + 1 ∧ t.mem = s.mem ∧ t.csr = s.csr ∧ t.reservation = s.reservation ∧
      t.six.sb = s.six.sb ∧ t.outcome = s.outcome)

/-- R412: a data access of main memory whose status is not OK ends the run in Fatal(BusError, addr) and changes nothing else. -/
def Obligations.FailedDataAccessesAreFatal : Prop :=
  ∀ (s : State) (a v : Word) (n : Nat), n ∈ [1, 2, 4, 8] → s.outcome = none → targetAt a = none →
    inMainMemory s.cfg a n = false →
    let final := { s with outcome := some (.fatal (.busError a)) }
    memRead a n s = .stopped (.fault (.busError a final)) ∧
    (a ≠ s.cfg.tohostAddr → memWrite a n v s = .stopped (.fault (.busError a final)))

/-! ### Atomics (44_atomic.md) -/

/-- LR and SC (R300, R305, R306, R316, R317). -/
def Obligations.LoadReservedAndStoreConditional : Prop :=
  ∀ (s : State) (aq rl : BitVec 1) (rd rs1 rs2 : Reg), AtEx s → s.mem.wf = true →
    let xl := s.cfg.xlen
    let a := s.src1 rs1
    let reserved := fun (n : Nat) (t : State) =>
      Effect (some (rd, ofIntX xl (signedBytes n (s.memNumber a n)))) none s t ∧ t.reservation = some ⟨a, n⟩ ∧
        t.csr = s.csr ∧ t.trace = s.trace ∧ t.draws = s.draws ∧ t.ex = s.ex
    let stored := fun (n : Nat) (t : State) =>
      Effect (some (rd, 0)) (some ⟨a, n, lowNumber n (s.src2 rs2)⟩) s t ∧ t.reservation = none ∧
        t.csr = s.csr ∧ t.trace = s.trace ∧ t.draws = s.draws ∧ t.ex = s.ex
    let failed := fun (t : State) =>
      RegsAfter (some (rd, 1)) s t ∧ MemAfter none s t ∧ StoreBufferAfter none s t ∧ SameMachine s t ∧
        t.reservation = none ∧ t.csr = s.csr ∧ t.trace = s.trace ∧ t.draws = s.draws ∧ t.ex = s.ex ∧
        ∀ j, t.robAt j = if s.cfg.pipe = .sixStage ∧ j = s.six.reg.l4.robIndex
          then { s.robAt j with result := 1, isStore := false } else s.robAt j
    (MainMemory s.cfg a 4 → ∃ t, exec (.lrW aq rl rd rs1) s = .next t ∧ reserved 4 t) ∧
    (MainMemory s.cfg a 8 → ∃ t, exec (.lrD aq rl rd rs1) s = .next t ∧ reserved 8 t) ∧
    (MainMemory s.cfg a 4 → a ≠ s.cfg.tohostAddr → s.reservation = some ⟨a, 4⟩ →
      ∃ t, exec (.scW aq rl rd rs1 rs2) s = .next t ∧ stored 4 t) ∧
    (MainMemory s.cfg a 8 → a ≠ s.cfg.tohostAddr → s.reservation = some ⟨a, 8⟩ →
      ∃ t, exec (.scD aq rl rd rs1 rs2) s = .next t ∧ stored 8 t) ∧
    (s.reservation ≠ some ⟨a, 4⟩ → ∃ t, exec (.scW aq rl rd rs1 rs2) s = .next t ∧ failed t) ∧
    (s.reservation ≠ some ⟨a, 8⟩ → ∃ t, exec (.scD aq rl rd rs1 rs2) s = .next t ∧ failed t)

/-- The AMOs on words (R302 to R304, R307 to R315). -/
def Obligations.WordAmosReadModifyWrite : Prop :=
  ∀ (s : State) (aq rl : BitVec 1) (rd rs1 rs2 : Reg),
    let a := s.src1 rs1
    AmoReady a 4 s →
    let old := s.memNumber a 4
    let src := lowNumber 4 (s.src2 rs2)
    let so := signedBytes 4 old
    let ss := signedBytes 4 src
    (∃ t, exec (.amoswapW aq rl rd rs1 rs2) s = .next t ∧ AmoDone rd a 4 old src s t) ∧
    (∃ t, exec (.amoaddW aq rl rd rs1 rs2) s = .next t ∧ AmoDone rd a 4 old ((old + src) % 2 ^ 32) s t) ∧
    (∃ t, exec (.amoxorW aq rl rd rs1 rs2) s = .next t ∧ AmoDone rd a 4 old (old ^^^ src) s t) ∧
    (∃ t, exec (.amoandW aq rl rd rs1 rs2) s = .next t ∧ AmoDone rd a 4 old (old &&& src) s t) ∧
    (∃ t, exec (.amoorW aq rl rd rs1 rs2) s = .next t ∧ AmoDone rd a 4 old (old ||| src) s t) ∧
    (∃ t, exec (.amominW aq rl rd rs1 rs2) s = .next t ∧ AmoDone rd a 4 old (if so < ss then old else src) s t) ∧
    (∃ t, exec (.amomaxW aq rl rd rs1 rs2) s = .next t ∧ AmoDone rd a 4 old (if so > ss then old else src) s t) ∧
    (∃ t, exec (.amominuW aq rl rd rs1 rs2) s = .next t ∧ AmoDone rd a 4 old (min old src) s t) ∧
    (∃ t, exec (.amomaxuW aq rl rd rs1 rs2) s = .next t ∧ AmoDone rd a 4 old (max old src) s t)

/-- The AMOs on doublewords (R302 to R304, R318 to R326). -/
def Obligations.DoublewordAmosReadModifyWrite : Prop :=
  ∀ (s : State) (aq rl : BitVec 1) (rd rs1 rs2 : Reg), s.cfg.xlen = .rv64 →
    let a := s.src1 rs1
    AmoReady a 8 s →
    let old := s.memNumber a 8
    let src := lowNumber 8 (s.src2 rs2)
    let so := signedBytes 8 old
    let ss := signedBytes 8 src
    (∃ t, exec (.amoswapD aq rl rd rs1 rs2) s = .next t ∧ AmoDone rd a 8 old src s t) ∧
    (∃ t, exec (.amoaddD aq rl rd rs1 rs2) s = .next t ∧ AmoDone rd a 8 old ((old + src) % 2 ^ 64) s t) ∧
    (∃ t, exec (.amoxorD aq rl rd rs1 rs2) s = .next t ∧ AmoDone rd a 8 old (old ^^^ src) s t) ∧
    (∃ t, exec (.amoandD aq rl rd rs1 rs2) s = .next t ∧ AmoDone rd a 8 old (old &&& src) s t) ∧
    (∃ t, exec (.amoorD aq rl rd rs1 rs2) s = .next t ∧ AmoDone rd a 8 old (old ||| src) s t) ∧
    (∃ t, exec (.amominD aq rl rd rs1 rs2) s = .next t ∧ AmoDone rd a 8 old (if so < ss then old else src) s t) ∧
    (∃ t, exec (.amomaxD aq rl rd rs1 rs2) s = .next t ∧ AmoDone rd a 8 old (if so > ss then old else src) s t) ∧
    (∃ t, exec (.amominuD aq rl rd rs1 rs2) s = .next t ∧ AmoDone rd a 8 old (min old src) s t) ∧
    (∃ t, exec (.amomaxuD aq rl rd rs1 rs2) s = .next t ∧ AmoDone rd a 8 old (max old src) s t)

/-- Which instructions may touch the reservation and the CSRs: only LR and SC set or clear the reservation (R300); only the CSR
instructions and MRET write a CSR, and MRET writes only `mstatus` (R43, R180, R401). -/
def Obligations.OnlyTheNamedInstructionsTouchReservationAndCsrs : Prop :=
  (∀ (i : Instr) (s t : State), exec i s = .next t → t.reservation ≠ s.reservation →
    (∃ aq rl rd rs1, i = .lrW aq rl rd rs1 ∨ i = .lrD aq rl rd rs1) ∨
    (∃ aq rl rd rs1 rs2, i = .scW aq rl rd rs1 rs2 ∨ i = .scD aq rl rd rs1 rs2)) ∧
  (∀ (i : Instr) (s t : State), exec i s = .next t → t.csr ≠ s.csr →
    (i = .mret ∧ t.csr = { s.csr with mstatus := t.csr.mstatus }) ∨
    (∃ rd csr rs1, i = .csrrw rd csr rs1 ∨ i = .csrrs rd csr rs1 ∨ i = .csrrc rd csr rs1) ∨
    (∃ rd csr uimm, i = .csrrwi rd csr uimm ∨ i = .csrrsi rd csr uimm ∨ i = .csrrci rd csr uimm))

/-! ### System instructions (46_system.md) -/

/-- The CSR instructions (R391 to R397): the old value, the stored one or for a counter a draw (R52), in rd; the write, where
there is one; no other CSR changes. Counter reads are the free value of log entry 3: this holds for every value of it. -/
def Obligations.CsrInstructionsReadAndWrite : Prop :=
  ∀ (s : State) (rd rs1 : Reg) (csr : CsrAddr) (uimm : BitVec 5), AtEx s → sparseWf s.csr.other = true →
    let u : Word := BitVec.ofNat 64 uimm.toNat
    (∃ t, exec (.csrrw rd csr rs1) s = .next t ∧ CsrEffect rd csr (fun _ => some (s.src1 rs1)) s t) ∧
    (∃ t, exec (.csrrs rd csr rs1) s = .next t ∧
      CsrEffect rd csr (fun old => if rs1 = 0 then none else some (old ||| s.src1 rs1)) s t) ∧
    (∃ t, exec (.csrrc rd csr rs1) s = .next t ∧
      CsrEffect rd csr (fun old => if rs1 = 0 then none else some (old &&& ~~~s.src1 rs1)) s t) ∧
    (∃ t, exec (.csrrwi rd csr uimm) s = .next t ∧ CsrEffect rd csr (fun _ => some u) s t) ∧
    (∃ t, exec (.csrrsi rd csr uimm) s = .next t ∧
      CsrEffect rd csr (fun old => if uimm = 0 then none else some (old ||| u)) s t) ∧
    (∃ t, exec (.csrrci rd csr uimm) s = .next t ∧
      CsrEffect rd csr (fun old => if uimm = 0 then none else some (old &&& ~~~u)) s t)

/-- ECALL (R398): a7 = 1 or 93 asks for the stop with code a0; a7 = 64 with a0 = 1 emits the a2 bytes from a1 on; anything
else does nothing. No register is written. -/
def Obligations.EcallPerformsItsServices : Prop :=
  ∀ (s : State), AtEx s →
    (s.x 17 = 1 ∨ s.x 17 = 93 → ∃ t, exec .ecall s = .next t ∧ Effect none none s t ∧ SameSpecial s t ∧
      t.ex = { s.ex with stop := some (.stopped (s.x 10)) }) ∧
    (s.x 17 = 64 ∧ s.x 10 = 1 →
      (∀ i, i < (s.x 12).toNat → MainMemory s.cfg (ofIntX s.cfg.xlen ((s.x 11).toNat + i)) 1) →
      ∃ t, exec .ecall s = .next t ∧ Effect none none s t ∧ t.csr = s.csr ∧ t.reservation = s.reservation ∧
        t.draws = s.draws ∧ t.ex = s.ex ∧
        t.trace = s.trace ++ (List.range (s.x 12).toNat).map fun i =>
          s.mem.byte (ofIntX s.cfg.xlen ((s.x 11).toNat + i)).toNat) ∧
    (s.x 17 ≠ 1 → s.x 17 ≠ 93 → ¬(s.x 17 = 64 ∧ s.x 10 = 1) → ∃ t, exec .ecall s = .next t ∧ Nothing s t)

/-- EBREAK and C.EBREAK report the breakpoint and ask for the halt (R362, R400); WFI, FENCE and FENCE.I do nothing (R402, R404,
R405). -/
def Obligations.BreakpointsHaltAndFencesAreNops : Prop :=
  ∀ (s : State) (fm pred succ : BitVec 4) (rs1 rd : Reg) (imm : BitVec 12), AtEx s →
    (∃ t, exec .ebreak s = .next t ∧ Effect none none s t ∧ SameSpecial s t ∧
      t.ex = { s.ex with breakpoint := true, stop := some .halted }) ∧
    (∃ t, exec .cEbreak s = .next t ∧ Effect none none s t ∧ SameSpecial s t ∧
      t.ex = { s.ex with breakpoint := true, stop := some .halted }) ∧
    (∃ t, exec .wfi s = .next t ∧ Nothing s t) ∧
    (∃ t, exec (.fence fm pred succ rs1 rd) s = .next t ∧ Nothing s t) ∧
    (∃ t, exec (.fenceI imm rs1 rd) s = .next t ∧ Nothing s t)

/-- A stop asked for at EX (R399, R494, R520): the 2-stage EX raises it and counts the instruction as retired; the 6-stage EX
records it in the instruction's ROB entry, and Commit raises it when that entry retires, counted. -/
def Obligations.StopsAreRaisedAtRetirement : Prop :=
  (∀ (s : State) (o : RunOutcome), s.ex.stop = some o → s.outcome = none →
    ∃ t, twoAfterExecute s = .next t ∧ t.outcome = some o ∧ t.stats.retired = s.stats.retired + 1 ∧
      t.regs = s.regs ∧ t.mem = s.mem ∧ t.csr = s.csr) ∧
  (∀ (s : State) (o : RunOutcome), s.ex.stop = some o → AtEx s → s.cfg.pipe = .sixStage →
    ∃ t, sixAfterExecute s = .next t ∧ t.outcome = s.outcome ∧
      (t.robAt s.six.reg.l4.robIndex).exception = some o ∧ (t.robAt s.six.reg.l4.robIndex).ready = true) ∧
  (∀ (s : State) (o : RunOutcome), s.six.count > 0 → (s.robAt s.six.head).ready = true →
    (s.robAt s.six.head).exception = some o → s.outcome = none →
    ∃ t, commit s = .next t ∧ t.outcome = some o ∧ t.stats.retired = s.stats.retired + 1 ∧ t.regs = s.regs ∧
      t.mem = s.mem ∧ t.csr = s.csr)

/-- R401: MRET sets `mstatus.MIE` and transfers to `mepc` with bit 0 cleared; nothing else changes. -/
def Obligations.MretReturns : Prop :=
  ∀ (s : State), AtEx s →
    ∃ t, exec .mret s = .next t ∧ Effect none none s t ∧
      t.csr = { s.csr with mstatus := s.csr.mstatus ||| 8 } ∧ t.reservation = s.reservation ∧ t.trace = s.trace ∧
      t.draws = s.draws ∧ t.ex = { s.ex with target := some (s.csr.mepc &&& ~~~1) }

/-! ### Compressed instructions (45_compressed.md) -/

/-- The compressed computations (R333, R338, R339, R341 to R353, R357, R361, R364): the result in their destination, and
nothing else. -/
def Obligations.CompressedComputationsCompute : Prop :=
  ∀ (s : State) (rd rs2 : Reg) (rd' rs2' : CReg) (uimm : BitVec 10) (imm : BitVec 6) (nz : BitVec 10), AtEx s →
    let xl := s.cfg.xlen
    let d := creg rd'
    let c := s.src1 d
    let e := s.src2 (creg rs2')
    (∃ t, exec (.cAddi4spn rd' uimm) s = .next t ∧
      OnlyResult d (ofIntX xl (signed xl (s.src1 2) + uimm.toNat)) s t) ∧
    (∃ t, exec (.cNop imm) s = .next t ∧ OnlyResult 0 (ofIntX xl (signed xl (s.src1 0) + imm.toInt)) s t) ∧
    (∃ t, exec (.cAddi rd imm) s = .next t ∧ OnlyResult rd (ofIntX xl (signed xl (s.src1 rd) + imm.toInt)) s t) ∧
    (∃ t, exec (.cAddiw rd imm) s = .next t ∧ OnlyResult rd (ofIntW xl (signedW (s.src1 rd) + imm.toInt)) s t) ∧
    (∃ t, exec (.cLi rd imm) s = .next t ∧ OnlyResult rd (ofIntX xl (signed xl (s.src1 0) + imm.toInt)) s t) ∧
    (∃ t, exec (.cAddi16sp nz) s = .next t ∧ OnlyResult 2 (ofIntX xl (signed xl (s.src1 2) + nz.toInt)) s t) ∧
    (∃ t, exec (.cLui rd imm) s = .next t ∧ OnlyResult rd (ofIntX xl (imm.toInt * 4096)) s t) ∧
    (imm.toNat < xl.bits →
      (∃ t, exec (.cSrli rd' imm) s = .next t ∧ OnlyResult d (ofIntX xl (unsigned xl c / 2 ^ imm.toNat)) s t) ∧
      (∃ t, exec (.cSrai rd' imm) s = .next t ∧ OnlyResult d (ofIntX xl (signed xl c / 2 ^ imm.toNat)) s t) ∧
      (∃ t, exec (.cSlli rd imm) s = .next t ∧
        OnlyResult rd (ofIntX xl (unsigned xl (s.src1 rd) * 2 ^ imm.toNat)) s t)) ∧
    (∃ t, exec (.cAndi rd' imm) s = .next t ∧ OnlyResult d (xl.wrap (c &&& ofIntX xl imm.toInt)) s t) ∧
    (∃ t, exec (.cSub rd' rs2') s = .next t ∧ OnlyResult d (ofIntX xl (signed xl c - signed xl e)) s t) ∧
    (∃ t, exec (.cXor rd' rs2') s = .next t ∧ OnlyResult d (xl.wrap (c ^^^ e)) s t) ∧
    (∃ t, exec (.cOr rd' rs2') s = .next t ∧ OnlyResult d (xl.wrap (c ||| e)) s t) ∧
    (∃ t, exec (.cAnd rd' rs2') s = .next t ∧ OnlyResult d (xl.wrap (c &&& e)) s t) ∧
    (∃ t, exec (.cSubw rd' rs2') s = .next t ∧ OnlyResult d (ofIntW xl (signedW c - signedW e)) s t) ∧
    (∃ t, exec (.cAddw rd' rs2') s = .next t ∧ OnlyResult d (ofIntW xl (signedW c + signedW e)) s t) ∧
    (∃ t, exec (.cMv rd rs2) s = .next t ∧
      OnlyResult rd (ofIntX xl (signed xl (s.src1 0) + signed xl (s.src2 rs2))) s t) ∧
    (∃ t, exec (.cAdd rd rs2) s = .next t ∧
      OnlyResult rd (ofIntX xl (signed xl (s.src1 rd) + signed xl (s.src2 rs2))) s t)

/-- The compressed transfers (R340, R354 to R356, R360, R363): the link of C.JAL and C.JALR is pc + 2. -/
def Obligations.CompressedTransfersTransfer : Prop :=
  ∀ (s : State) (rs1 : Reg) (rs1' : CReg) (off : BitVec 12) (boff : BitVec 9), AtEx s →
    let xl := s.cfg.xlen
    let link := ofIntX xl (s.instrPc.toNat + 2)
    let a := unsigned xl (s.src1 (creg rs1'))
    let z := unsigned xl (s.src2 0)
    let reg := ofIntX xl (2 * (signed xl (s.src1 rs1) / 2))
    (∃ t, exec (.cJal off) s = .next t ∧ Jump (some (1, link)) (ofIntX xl (s.instrPc.toNat + off.toInt)) s t) ∧
    (∃ t, exec (.cJ off) s = .next t ∧ Jump (some (0, link)) (ofIntX xl (s.instrPc.toNat + off.toInt)) s t) ∧
    (∃ t, exec (.cJr rs1) s = .next t ∧ Jump (some (0, link)) reg s t) ∧
    (∃ t, exec (.cJalr rs1) s = .next t ∧ Jump (some (1, link)) reg s t) ∧
    (∃ t, exec (.cBeqz rs1' boff) s = .next t ∧
      if a = z then Jump none (ofIntX xl (s.instrPc.toNat + boff.toInt)) s t else Nothing s t) ∧
    (∃ t, exec (.cBnez rs1' boff) s = .next t ∧
      if a ≠ z then Jump none (ofIntX xl (s.instrPc.toNat + boff.toInt)) s t else Nothing s t)

/-- The compressed loads and stores (R334 to R337, R358, R359, R365, R366) on main memory. -/
def Obligations.CompressedLoadsAndStoresAccessMemory : Prop :=
  ∀ (s : State) (rd rs2 : Reg) (rd' rs1' : CReg) (u7 : BitVec 7) (u8 : BitVec 8) (u9 : BitVec 9), AtEx s →
    s.mem.wf = true →
    let xl := s.cfg.xlen
    let w := s.ea (creg rs1') (xl.zext u7)
    let d := s.ea (creg rs1') (xl.zext u8)
    let wsp := s.ea 2 (xl.zext u8)
    let dsp := s.ea 2 (xl.zext u9)
    (MainMemory s.cfg w 4 →
      (∃ t, exec (.cLw rd' rs1' u7) s = .next t ∧
        OnlyResult (creg rd') (ofIntX xl (signedBytes 4 (s.memNumber w 4))) s t) ∧
      (w ≠ s.cfg.tohostAddr → ∃ t, exec (.cSw rs1' rd' u7) s = .next t ∧
        OnlyStore ⟨w, 4, lowNumber 4 (s.src2 (creg rd'))⟩ s t)) ∧
    (MainMemory s.cfg d 8 →
      (∃ t, exec (.cLd rd' rs1' u8) s = .next t ∧ OnlyResult (creg rd') (ofIntX xl (s.memNumber d 8)) s t) ∧
      (d ≠ s.cfg.tohostAddr → ∃ t, exec (.cSd rs1' rd' u8) s = .next t ∧
        OnlyStore ⟨d, 8, lowNumber 8 (s.src2 (creg rd'))⟩ s t)) ∧
    (MainMemory s.cfg wsp 4 →
      (∃ t, exec (.cLwsp rd u8) s = .next t ∧
        OnlyResult rd (ofIntX xl (signedBytes 4 (s.memNumber wsp 4))) s t) ∧
      (wsp ≠ s.cfg.tohostAddr → ∃ t, exec (.cSwsp rs2 u8) s = .next t ∧
        OnlyStore ⟨wsp, 4, lowNumber 4 (s.src2 rs2)⟩ s t)) ∧
    (MainMemory s.cfg dsp 8 →
      (∃ t, exec (.cLdsp rd u9) s = .next t ∧ OnlyResult rd (ofIntX xl (s.memNumber dsp 8)) s t) ∧
      (dsp ≠ s.cfg.tohostAddr → ∃ t, exec (.cSdsp rs2 u9) s = .next t ∧
        OnlyStore ⟨dsp, 8, lowNumber 8 (s.src2 rs2)⟩ s t))

/-- R519: a compressed instruction that reaches EX of the 6-stage pipeline ends the run in Fatal(Refused, Compressed) without
executing. -/
def Obligations.SixStageRefusesCompressedCode : Prop :=
  ∀ (s : State) (i : Instr), s.six.reg.l4.valid = true → s.six.reg.l4.op = some i → Instr.isCompressed i = true →
    s.outcome = none →
    sixEx s = .refused (.compressed s.six.reg.l4.pc
      { s with outcome := some (.fatal (.refused (.compressed s.six.reg.l4.pc))) })

/-! ### Bus and memory (20_memory.md) -/

/-- R83: a non-zero Write of `TOHOST_ADDR` ends the run with the value as code; a Write of zero is answered OK with no effect and
is not forwarded; a Read is not special: it goes to main memory, since no device range contains the address. -/
def Obligations.TohostWritesStopTheRun : Prop :=
  ∀ (s : State) (v : Word) (n : Nat), n ∈ [1, 2, 4, 8] → s.outcome = none → targetAt s.cfg.tohostAddr = none →
    (lowNumber n v ≠ 0 → memWrite s.cfg.tohostAddr n v s =
      .stopped (.next { s with outcome := some (.stopped (ofIntX s.cfg.xlen (lowNumber n v))) })) ∧
    (lowNumber n v = 0 → memWrite s.cfg.tohostAddr n v s = .ok 0 s) ∧
    (MainMemory s.cfg s.cfg.tohostAddr n →
      memRead s.cfg.tohostAddr n s = .ok (BitVec.ofNat 64 (s.memNumber s.cfg.tohostAddr n)) s) ∧
    (inMainMemory s.cfg s.cfg.tohostAddr n = false →
      memRead s.cfg.tohostAddr n s = .stopped (.fault (.busError s.cfg.tohostAddr
        { s with outcome := some (.fatal (.busError s.cfg.tohostAddr)) })))

/-- R103, R270: a write of main memory followed by a read of the same address and width returns the value written, and a
one-byte read inside it returns the little-endian byte. -/
def Obligations.MemoryRoundTrip : Prop :=
  ∀ (s : State) (a v : Word) (n : Nat), n ∈ [1, 2, 4, 8] → MainMemory s.cfg a n → a ≠ s.cfg.tohostAddr →
    s.mem.wf = true →
    ∃ t, memWrite a n v s = .ok 0 t ∧ memRead a n t = .ok (BitVec.ofNat 64 (lowNumber n v)) t ∧
      ∀ i, i < n → MainMemory s.cfg (ofIntX s.cfg.xlen (a.toNat + i)) 1 →
        memRead (ofIntX s.cfg.xlen (a.toNat + i)) 1 t = .ok (BitVec.ofNat 64 (byteOf v.toNat i).toNat) t

/-- R94 (I7): a fetch through a granted DMI descriptor returns the word the bus returns, and the other way round; and on either
path a fetch of four bytes of main memory that starts in no device returns their little-endian number, and changes at most
the descriptor held (R92, R106, R123). -/
def Obligations.DmiFetchesEqualBusFetches : Prop :=
  ∀ (s : State) (pc : Word) (w : BitVec 32), Config.wf s.cfg = true → s.cfg.xlen.Fits pc →
    ((∃ t, fetch pc { s with dmi := none } = .ok w t) ↔
      (∃ t, fetch pc { s with dmi := some (dmiGrant s.cfg) } = .ok w t)) ∧
    (isDeviceAddr s.cfg pc = false → inMainMemory s.cfg pc 4 = true →
      ∀ d : Option DmiDescriptor, d = none ∨ d = some (dmiGrant s.cfg) →
        ∃ e, fetch pc { s with dmi := d } = .ok (BitVec.ofNat 32 (s.memNumber pc 4)) { s with dmi := e })

/-- R107, R411: a fetch from a device range or from `TOHOST_ADDR` is refused; a fetch of another address outside main memory
is fatal, with no DMI descriptor held and with the granted one (R92). -/
def Obligations.BadFetchesEndTheRun : Prop :=
  ∀ (s : State) (pc : Word), s.outcome = none →
    (isDeviceAddr s.cfg pc = true → fetch pc s = .stopped (.refused (.fetchFromDevice pc
      { s with outcome := some (.fatal (.refused (.fetchFromDevice pc))) }))) ∧
    (isDeviceAddr s.cfg pc = false → s.dmi = none ∨ (Config.wf s.cfg = true ∧ s.dmi = some (dmiGrant s.cfg)) →
      inMainMemory s.cfg pc 4 = false →
      fetch pc s = .stopped (.fault (.fetchError pc { s with outcome := some (.fatal (.fetchError pc)) })))

/-- R87: an unbound target answers OK: a Write has no effect, a Read changes nothing and returns a value the model does not
fix (log entry 3; this holds for every value of it). -/
def Obligations.UnboundTargetsAnswerWithoutEffect : Prop :=
  ∀ (s : State) (tg : Target) (a v : Word) (n : Nat), targetAt a = some tg → tg ∈ s.cfg.unbound →
    a ≠ s.cfg.tohostAddr →
    memWrite a n v s = .ok 0 s ∧ ∃ w, memRead a n s = .ok w { s with draws := s.draws + 1 }

/-! ### Devices (20_memory.md, 60_exceptions.md) -/

/-- R450 to R452: the CLINT and the legacy timer are two windows of one pair of registers. Every access the two windows
support, in every state: what a Read of each returns, and what a Write of each leaves; a 4-byte Write changes only its
half. So a write through one window is what the other reads. -/
def Obligations.TimerWindowsShareTheRegisters : Prop :=
  ∀ (s : State) (v : Word), Target.clint ∉ s.cfg.unbound → Target.legacyTimer ∉ s.cfg.unbound →
    targetAt s.cfg.tohostAddr = none →
    let low := fun (r : BitVec 64) => BitVec.ofNat 64 (r.toNat % 2 ^ 32)
    let high := fun (r : BitVec 64) => BitVec.ofNat 64 (r.toNat / 2 ^ 32)
    let withLow := fun (r : BitVec 64) => BitVec.ofNat 64 (r.toNat / 2 ^ 32 * 2 ^ 32 + lowNumber 4 v)
    let withHigh := fun (r : BitVec 64) => BitVec.ofNat 64 (lowNumber 4 v * 2 ^ 32 + r.toNat % 2 ^ 32)
    let cmp := fun (r : BitVec 64) => { s with timer := { s.timer with mtimecmp := r } }
    let time := fun (r : BitVec 64) => { s with timer := { s.timer with mtime := r } }
    (∀ a ∈ ([0x02004000, 0x40004008] : List Word), memRead a 4 s = .ok (low s.timer.mtimecmp) s ∧
      memWrite a 4 v s = .ok 0 (cmp (withLow s.timer.mtimecmp))) ∧
    (∀ a ∈ ([0x02004004, 0x4000400C] : List Word), memRead a 4 s = .ok (high s.timer.mtimecmp) s ∧
      memWrite a 4 v s = .ok 0 (cmp (withHigh s.timer.mtimecmp))) ∧
    (∀ a ∈ ([0x0200BFF8, 0x40004000] : List Word), memRead a 4 s = .ok (low s.timer.mtime) s ∧
      memWrite a 4 v s = .ok 0 (time (withLow s.timer.mtime))) ∧
    (∀ a ∈ ([0x0200BFFC, 0x40004004] : List Word), memRead a 4 s = .ok (high s.timer.mtime) s ∧
      memWrite a 4 v s = .ok 0 (time (withHigh s.timer.mtime))) ∧
    (memRead 0x02004000 8 s = .ok s.timer.mtimecmp s ∧ memWrite 0x02004000 8 v s = .ok 0 (cmp v)) ∧
    (memRead 0x0200BFF8 8 s = .ok s.timer.mtime s ∧ memWrite 0x0200BFF8 8 v s = .ok 0 (time v))

/-- R457: a Read of claim returns the pending and enabled source with the largest priority above the threshold, the smallest
of equals, clears its pending bit and records it; with no candidate it returns 0 and changes nothing. R458: a Write of a
source id to complete clears its pending bit, for ids from 1 to PLIC_NSRC - 1; any other value has no effect. -/
def Obligations.PlicClaimsAndCompletes : Prop :=
  (∀ (s : State), Target.plic ∉ s.cfg.unbound → s.cfg.plicNsrc ≤ 1024 →
    let cand := fun id => 1 ≤ id ∧ id < s.cfg.plicNsrc ∧ sourceBit s.plic.pending id = true ∧
      sourceBit s.plic.enable id = true ∧ s.plic.threshold.toNat < s.plic.prio id
    ((∀ id, ¬cand id) → memRead 0x0C200004 4 s = .ok 0 s) ∧
    ((∃ id, cand id) → ∃ id p, memRead 0x0C200004 4 s = .ok (BitVec.ofNat 64 id) { s with plic := p } ∧ cand id ∧
      (∀ j, cand j → s.plic.prio j < s.plic.prio id ∨ (s.plic.prio j = s.plic.prio id ∧ id ≤ j)) ∧
      (∀ j, sourceBit p.pending j = (decide (j ≠ id) && sourceBit s.plic.pending j)) ∧
      p = { s.plic with pending := p.pending, claimed := id })) ∧
  (∀ (s : State) (v : Word), Target.plic ∉ s.cfg.unbound → targetAt s.cfg.tohostAddr = none →
    s.cfg.plicNsrc ≤ 1024 →
    let id := lowNumber 4 v
    ∃ p, memWrite 0x0C200004 4 v s = .ok 0 { s with plic := p } ∧ p = { s.plic with pending := p.pending } ∧
      ∀ j, sourceBit p.pending j =
        (!(decide (1 ≤ id) && decide (id < s.cfg.plicNsrc) && decide (j = id)) && sourceBit s.plic.pending j))

/-- R455: the PLIC's priority, pending, enable and threshold registers: a Write is read back, but for the bits of source 0 and of
sources from PLIC_NSRC up, which read 0. -/
def Obligations.PlicRegistersReadBack : Prop :=
  ∀ (s : State) (v : Word) (k : Nat), Target.plic ∉ s.cfg.unbound → targetAt s.cfg.tohostAddr = none →
    s.cfg.plicNsrc ≤ 1024 → s.plic.priority.length = s.cfg.plicNsrc →
    let n := BitVec.ofNat 64 (lowNumber 4 v)
    let kept := fun (w : Word) => ∀ i, i < 64 → w.getLsbD i =
      (n.getLsbD i && decide (1 ≤ 32 * k + i) && decide (32 * k + i < s.cfg.plicNsrc))
    (k < s.cfg.plicNsrc → ∃ t, memWrite (0x0C000000 + BitVec.ofNat 64 (4 * k)) 4 v s = .ok 0 t ∧
      memRead (0x0C000000 + BitVec.ofNat 64 (4 * k)) 4 t = .ok n t) ∧
    (32 * k < s.cfg.plicNsrc → ∃ t w, memWrite (0x0C001000 + BitVec.ofNat 64 (4 * k)) 4 v s = .ok 0 t ∧
      memRead (0x0C001000 + BitVec.ofNat 64 (4 * k)) 4 t = .ok w t ∧ kept w) ∧
    (32 * k < s.cfg.plicNsrc → ∃ t w, memWrite (0x0C002000 + BitVec.ofNat 64 (4 * k)) 4 v s = .ok 0 t ∧
      memRead (0x0C002000 + BitVec.ofNat 64 (4 * k)) 4 t = .ok w t ∧ kept w) ∧
    (∃ t, memWrite 0x0C200000 4 v s = .ok 0 t ∧ memRead 0x0C200000 4 t = .ok n t)

/-- R462: the syscall hook stores the words written at +0, +4 and +8 and returns them; a Read of `status` returns a draw, the free
value of log entry 3; a Write of `status` is accepted and ignored. R460, R461: a Write of 1, 2 or 4 bytes at offset 0 of
the UART or the trace port appends its low byte; a Read is unsupported and ends the run in Fatal(Refused,
UnsupportedDeviceAccess) (R110). -/
def Obligations.HookWordsAndByteSinks : Prop :=
  (∀ (s : State) (v : Word), Target.syscallHook ∉ s.cfg.unbound → targetAt s.cfg.tohostAddr = none →
    let n : Word := BitVec.ofNat 64 (lowNumber 4 v)
    (∃ t, memWrite 0x80000000 4 v s = .ok 0 t ∧ t = { s with hook := { s.hook with syscallNum := v.setWidth 32 } } ∧
      memRead 0x80000000 4 t = .ok n t) ∧
    (∃ t, memWrite 0x80000004 4 v s = .ok 0 t ∧ t = { s with hook := { s.hook with arg := v.setWidth 32 } } ∧
      memRead 0x80000004 4 t = .ok n t) ∧
    (∃ t, memWrite 0x80000008 4 v s = .ok 0 t ∧ t = { s with hook := { s.hook with charOut := v.setWidth 32 } } ∧
      memRead 0x80000008 4 t = .ok n t) ∧
    memWrite 0x8000000C 4 v s = .ok 0 s ∧
    memRead 0x8000000C 4 s = .ok (BitVec.ofNat 64 (lowNumber 4 (Config.draw s.draws))) { s with draws := s.draws + 1 }) ∧
  (∀ (s : State) (v : Word) (n : Nat), n ∈ [1, 2, 4] → s.outcome = none → Target.uart ∉ s.cfg.unbound →
    Target.trace ∉ s.cfg.unbound → targetAt s.cfg.tohostAddr = none →
    memWrite 0x10000000 n v s = .ok 0 { s with uart := s.uart ++ [byteOf v.toNat 0] } ∧
    memWrite 0x40000000 n v s = .ok 0 { s with trace := s.trace ++ [byteOf v.toNat 0] } ∧
    memRead 0x10000000 n s = .stopped (.refused (.unsupportedDeviceAccess 0x10000000
      { s with outcome := some (.fatal (.refused (.unsupportedDeviceAccess 0x10000000))) })) ∧
    memRead 0x40000000 n s = .stopped (.refused (.unsupportedDeviceAccess 0x40000000
      { s with outcome := some (.fatal (.refused (.unsupportedDeviceAccess 0x40000000))) })))

/-- R463: any access at exactly 0x9000_0000 ends the run with code 0; one that starts at the next three addresses is
unsupported; addresses from 0x9000_0004 up are in no device range. -/
def Obligations.LegacyTerminationStopsTheRun : Prop :=
  ∀ (s : State) (v : Word) (n k : Nat), n ∈ [1, 2, 4, 8] → 1 ≤ k → k ≤ 3 → s.outcome = none →
    Target.legacyTermination ∉ s.cfg.unbound → targetAt s.cfg.tohostAddr = none →
    let a : Word := 0x90000000 + BitVec.ofNat 64 k
    memRead 0x90000000 n s = .stopped (.next { s with outcome := some (.stopped 0) }) ∧
    memWrite 0x90000000 n v s = .stopped (.next { s with outcome := some (.stopped 0) }) ∧
    memRead a n s = .stopped (.refused (.unsupportedDeviceAccess a
      { s with outcome := some (.fatal (.refused (.unsupportedDeviceAccess a))) })) ∧
    memWrite a n v s = .stopped (.refused (.unsupportedDeviceAccess a
      { s with outcome := some (.fatal (.refused (.unsupportedDeviceAccess a))) })) ∧
    ∀ b : Word, 0x90000004 ≤ b.toNat → targetAt b = none

/-- R130: a Write to `control` with bit 0 set while idle stores the value, latches the parameters and starts the transfer; while
in flight a Write stores bits [31:1] only, and a Write to `src`, `dst` or `len` changes the register but not the transfer. -/
def Obligations.DmaStartsOnControlBit0 : Prop :=
  ∀ (s : State) (v : Word), Target.dma ∉ s.cfg.unbound → targetAt s.cfg.tohostAddr = none →
    memWrite 0x30000000 4 v s = .ok 0 { s with dma := { s.dma with src := v.setWidth 32 } } ∧
    memWrite 0x30000004 4 v s = .ok 0 { s with dma := { s.dma with dst := v.setWidth 32 } } ∧
    memWrite 0x30000008 4 v s = .ok 0 { s with dma := { s.dma with len := v.setWidth 32 } } ∧
    ∃ d, memWrite 0x3000000C 4 v s = .ok 0 { s with dma := d } ∧
      d.src = s.dma.src ∧ d.dst = s.dma.dst ∧ d.len = s.dma.len ∧
      if s.dma.inFlight then
        d = { s.dma with control := d.control } ∧ d.control.getLsbD 0 = s.dma.control.getLsbD 0 ∧
          ∀ i, 1 ≤ i → i < 32 → d.control.getLsbD i = v.getLsbD i
      else d.control = v.setWidth 32 ∧
        if v.getLsbD 0 then d.inFlight = true ∧ d.xferSrc = s.dma.src ∧ d.xferDst = s.dma.dst ∧
          d.xferLen = s.dma.len ∧ d.buffer = none
        else d.inFlight = false ∧ d = { s.dma with control := d.control }

/-- R131, R132: the two steps of a transfer whose ranges are main memory and meet no device copy the source bytes, as they were
before, to the destination, change no other byte, and end with `control` bit 0 clear and no transfer in flight. Which ranges
meet no device is the model's choice where R134 leaves it open: the range is taken modulo 2^XLEN and `TOHOST_ADDR` is one
address wide (log entry 14). -/
def Obligations.DmaCopiesTheWholeSource : Prop :=
  ∀ (s : State), s.mem.wf = true → s.dma.inFlight = true → s.dma.buffer = none →
    let src : Word := s.dma.xferSrc.setWidth 64
    let dst : Word := s.dma.xferDst.setWidth 64
    let n := s.dma.xferLen.toNat
    n ≠ 0 → s.cfg.memSize ≤ 2 ^ s.cfg.xlen.bits →
    meetsDevice s.cfg src n = false → meetsDevice s.cfg dst n = false →
    inMainMemory s.cfg src n = true → inMainMemory s.cfg dst n = true →
    ∃ t u, dmaStep s = .next t ∧ t.mem = s.mem ∧ t.dma.inFlight = true ∧ dmaStep t = .next u ∧
      (∀ i, i < n → u.mem.byte (addrAt s.cfg.xlen dst i) = s.mem.byte (addrAt s.cfg.xlen src i)) ∧
      (∀ b, (∀ i, i < n → b ≠ addrAt s.cfg.xlen dst i) → u.mem.byte b = s.mem.byte b) ∧
      u.dma.inFlight = false ∧ u.dma.control.getLsbD 0 = false ∧ u.regs = s.regs ∧ u.csr = s.csr ∧
      u.outcome = s.outcome

/-- R131 to R134: a step of a transfer of length 0 completes with no access; the Read of a source, or the Write of a destination,
whose range is outside main memory aborts and changes no byte; one whose range meets a device is refused. Which ranges
meet a device, and that such a range is refused before main memory is asked for its status, is the model's choice where R133
and R134 leave it open: the range is taken modulo 2^XLEN and `TOHOST_ADDR` is one address wide (log entry 14). -/
def Obligations.DmaEndsOrIsRefused : Prop :=
  ∀ (s : State), s.dma.inFlight = true → s.outcome = none →
    let n := s.dma.xferLen.toNat
    let done := { s with dma := { s.dma with control := s.dma.control &&& ~~~1, inFlight := false, buffer := none } }
    let fails := fun (a : Word) =>
      (meetsDevice s.cfg a n = false → inMainMemory s.cfg a n = false → dmaStep s = .next done) ∧
      (meetsDevice s.cfg a n = true → dmaStep s = .refused (.dmaToDevice a
        { s with outcome := some (.fatal (.refused (.dmaToDevice a))) }))
    (s.dma.buffer = none → n = 0 → dmaStep s = .next done) ∧
    (s.dma.buffer = none → n ≠ 0 → fails (s.dma.xferSrc.setWidth 64)) ∧
    (∀ bytes, s.dma.buffer = some bytes → n ≠ 0 → fails (s.dma.xferDst.setWidth 64))

/-! ### Interrupts (60_exceptions.md) -/

/-- R421 to R426: when the IRQ line is high, MIE is set, MEIP is clear (and MTIE is set where `IRQ_GATE_MIE`), and the 6-stage
pipeline is drained, the poll enters the interrupt: MEIP set, `mepc` the pc of the oldest instruction that has not executed,
`mcause`, the fetch PC at `mtvec & ~3`, every latch a bubble, the latency billed and a flush counted; `mstatus`, every other
CSR, the registers, memory and the devices are unchanged. The fields of a bubble other than `valid` are the model's choice
(log entry 21). -/
def Obligations.PollEntersTheInterrupt : Prop :=
  ∀ (s : State), s.timer.mtimecmp.toNat ≤ s.timer.mtime.toNat → s.csr.mstatus.getLsbD 3 = true →
    s.csr.mip.getLsbD 11 = false → (s.cfg.irqGateMie = true → s.csr.mie.getLsbD 7 = true) →
    s.cfg.xlen.Fits s.cfg.irqCause →
    let t := poll s
    let saved := fun pc => { s.csr with
      mip := s.csr.mip ||| 0x800
      mepc := pc
      mcause := BitVec.ofNat 64 (2 ^ (s.cfg.xlen.bits - 1)) ||| s.cfg.irqCause }
    (s.cfg.pipe = .twoStage →
      SameButTrap s t ∧ t.csr = saved (if s.two.latchNext.valid then s.two.latchNext.pc else s.two.pc) ∧
      t.two = ⟨s.csr.mtvec &&& ~~~3, .bubble, .bubble, false⟩ ∧ t.six = s.six ∧
      t.irq.entered = true ∧ t.irq.stall = s.cfg.irqLatency ∧
      t.stats = { s.stats with flushes := s.stats.flushes + 1 }) ∧
    (s.cfg.pipe = .sixStage → s.six.count = 0 → s.six.reg.l4.valid = false →
      SameButTrap s t ∧
      t.csr = saved (if s.six.reg.l3.valid then s.six.reg.l3.record.pc
        else if s.six.reg.l2.valid then s.six.reg.l2.pc
        else if s.six.reg.l1.valid then s.six.reg.l1.pc
        else s.six.pcgenPc) ∧
      t.six = { s.six with pcgenPc := s.csr.mtvec &&& ~~~3, reg := .bubbles, next := .bubbles } ∧ t.two = s.two ∧
      t.irq = ⟨true, s.cfg.irqLatency, false⟩ ∧ t.stats = { s.stats with flushes := s.stats.flushes + 1 }) ∧
    (s.cfg.pipe = .sixStage → s.six.count ≠ 0 ∨ s.six.reg.l4.valid = true →
      t = { s with irq := { s.irq with drain := true } })

/-- R421, R427, R429: with the line high and MIE clear, or MEIP set, or the gate closed, the poll enters nothing; with the line
low it clears MEIP where an entry had set it, and nothing else of the CSRs. -/
def Obligations.PollDoesNotEnterWhenMasked : Prop :=
  ∀ (s : State), let t := poll s
    (s.timer.mtimecmp.toNat ≤ s.timer.mtime.toNat →
      s.csr.mstatus.getLsbD 3 = false ∨ s.csr.mip.getLsbD 11 = true ∨
        (s.cfg.irqGateMie = true ∧ s.csr.mie.getLsbD 7 = false) →
      t = { s with irq := { s.irq with drain := decide (s.cfg.pipe = .twoStage) && s.irq.drain } }) ∧
    (s.timer.mtime.toNat < s.timer.mtimecmp.toNat →
      SameButTrap s t ∧ t.two = s.two ∧ t.six = s.six ∧ t.stats = s.stats ∧ t.irq.entered = false ∧
      t.irq.stall = s.irq.stall ∧
      t.csr = if s.irq.entered then { s.csr with mip := s.csr.mip &&& ~~~0x800 } else s.csr)

/-! ### The 6-stage pipeline (70_reset_and_hazards.md) -/

/-- R503, R516, R522: IS sends a bubble and stalls when the drain holds, a source field names a register with a valid ROB entry,
or the ROB is full; otherwise it allocates the tail entry and reads both operands from the register file. -/
def Obligations.IssueWaitsForItsOperands : Prop :=
  ∀ (s : State), s.ex = ExecResult.none → s.six.reg.l3.valid = true → s.six.tail < s.six.rob.length →
    let r := s.six.reg.l3.record
    let inFlight := fun x => x ≠ 0 ∧ ∃ j, j < s.six.rob.length ∧ (s.robAt j).valid = true ∧ (s.robAt j).destReg = x
    let t := (sixIs s).1
    if s.irq.drain = true ∨ inFlight r.rs1 ∨ inFlight r.rs2 ∨ s.six.count = s.cfg.robN then
      (sixIs s).2 = true ∧ t.six.next.l4.valid = false ∧ t.six.rob = s.six.rob ∧ t.six.count = s.six.count ∧
        t.stats.issueStalls = s.stats.issueStalls + 1
    else (sixIs s).2 = false ∧
      t.six.next.l4 = ⟨true, r.pc, r.op, r.rd, s.x r.rs1, s.x r.rs2, s.six.tail⟩ ∧
      t.robAt s.six.tail = ⟨true, false, r.destReg, 0, r.op.any Instr.isStore, r.op.any Instr.isBranch, none, r.pc⟩ ∧
      (∀ j, j ≠ s.six.tail → t.robAt j = s.robAt j) ∧ t.six.count = s.six.count + 1 ∧
      t.six.tail = (s.six.tail + 1) % s.cfg.robN ∧ t.stats = s.stats

/-! ### The other agents (60_exceptions.md, 70_reset_and_hazards.md) -/

/-- R454: the ticks performed, which the model counts in a field of its own (log entry 7), stay on time: after cycle n the timer has performed every tick strictly before n · CLK_PERIOD and
none after it. Every step that ends no run keeps this. R450: over a boundary, where the ticks are performed, `mtime` grows by
their number, modulo 2^64, and `mtimecmp` is unchanged. -/
def Obligations.TicksStayOnTime : Prop :=
  (∀ (s t : State), 0 < s.cfg.mtimeTick →
    ticksBefore s.cfg (s.stats.cycles * s.cfg.clkPeriod) ≤ s.timer.ticks →
    s.timer.ticks ≤ ticksUpTo s.cfg (s.stats.cycles * s.cfg.clkPeriod) →
    step s = .next t → t.outcome = none →
    ticksBefore t.cfg (t.stats.cycles * t.cfg.clkPeriod) ≤ t.timer.ticks ∧
      t.timer.ticks ≤ ticksUpTo t.cfg (t.stats.cycles * t.cfg.clkPeriod) ∧ t.stats.cycles = s.stats.cycles + 1) ∧
  (∀ (s b : State), boundary s = .next b →
    s.timer.ticks ≤ b.timer.ticks ∧
      b.timer.mtime = s.timer.mtime + BitVec.ofNat 64 (b.timer.ticks - s.timer.ticks) ∧
      b.timer.mtimecmp = s.timer.mtimecmp)

/-- R472, R474: the data bytes of an image are placed at consecutive addresses, all of main memory, and no other byte changes; a
record of an unknown type makes the image invalid. That no address wraps within a record is the model's choice (log entry
9). -/
def Obligations.ImageBytesArePlacedInMainMemory : Prop :=
  (∀ (cfg : Config) (m m' : Memory) (a : Nat) (bs : List Nat), m.wf = true → loadData cfg m a bs = some m' →
    m'.wf = true ∧ (∀ (i : Nat) (h : i < bs.length), isMainMemory cfg (a + i) = true ∧
      m'.byte (a + i) = BitVec.ofNat 8 bs[i]) ∧
    ∀ b, b < a ∨ a + bs.length ≤ b → m'.byte b = m.byte b) ∧
  (∀ (cfg : Config) (st : ImageState) (r : HexRecord), 5 < r.kind → applyRecord cfg st r = none)

/-! ### Self-modifying code (20_memory.md, 70_reset_and_hazards.md) -/

/-- The 2-stage cycle of any instruction that takes no transfer and ends no run: the word fetched behind it is the one main
memory holds after the instruction (R123, R486), or the one it held before, so that the instruction right after a store
executes its old bytes (R124, R533). The spec gives both accounts: which holds is the model's parameter
`oldWordAfterStore` (log entry 23), and this says what each value of it gives. -/
def Obligations.TheWordFetchedBehindAStore : Prop :=
  ∀ (s t : State) (i : Instr), s.two.latchNext.valid = true → decode s.cfg.xlen s.two.latchNext.word = .ok i →
    exec i (twoAdvance s) = .next t → t.cfg = s.cfg → t.outcome = none → t.ex = ExecResult.none → t.two.flush = false →
    t.dma.inFlight = false → isDeviceAddr s.cfg t.two.pc = false → inMainMemory s.cfg t.two.pc 4 = true →
    ∃ u, twoStages s = .next u ∧ u.mem = t.mem ∧ u.two.latchNext.valid = true ∧ u.two.latchNext.pc = t.two.pc ∧
      u.two.latchNext.word = BitVec.ofNat 32
        (if s.cfg.oldWordAfterStore then s.memNumber t.two.pc 4 else t.memNumber t.two.pc 4)
end

