-- ==== Sys2Proof/Laws/State.lean ====
section
/-! SUPPORT. One lemma per field of State per named update, so that no proof unfolds a record update. -/

namespace Sys2Proof.Machine

/-! ### `State.setX` -/

@[simp] theorem State.setX_cfg (r : Reg) (v : Word) (s : State) :
    (s.setX r v).cfg = s.cfg := by unfold State.setX; split <;> rfl
@[simp] theorem State.setX_csr (r : Reg) (v : Word) (s : State) :
    (s.setX r v).csr = s.csr := by unfold State.setX; split <;> rfl
@[simp] theorem State.setX_reservation (r : Reg) (v : Word) (s : State) :
    (s.setX r v).reservation = s.reservation := by unfold State.setX; split <;> rfl
@[simp] theorem State.setX_two (r : Reg) (v : Word) (s : State) :
    (s.setX r v).two = s.two := by unfold State.setX; split <;> rfl
@[simp] theorem State.setX_six (r : Reg) (v : Word) (s : State) :
    (s.setX r v).six = s.six := by unfold State.setX; split <;> rfl
@[simp] theorem State.setX_irq (r : Reg) (v : Word) (s : State) :
    (s.setX r v).irq = s.irq := by unfold State.setX; split <;> rfl
@[simp] theorem State.setX_stats (r : Reg) (v : Word) (s : State) :
    (s.setX r v).stats = s.stats := by unfold State.setX; split <;> rfl
@[simp] theorem State.setX_dmi (r : Reg) (v : Word) (s : State) :
    (s.setX r v).dmi = s.dmi := by unfold State.setX; split <;> rfl
@[simp] theorem State.setX_dmiInvalidate (r : Reg) (v : Word) (s : State) :
    (s.setX r v).dmiInvalidate = s.dmiInvalidate := by unfold State.setX; split <;> rfl
@[simp] theorem State.setX_mem (r : Reg) (v : Word) (s : State) :
    (s.setX r v).mem = s.mem := by unfold State.setX; split <;> rfl
@[simp] theorem State.setX_timer (r : Reg) (v : Word) (s : State) :
    (s.setX r v).timer = s.timer := by unfold State.setX; split <;> rfl
@[simp] theorem State.setX_plic (r : Reg) (v : Word) (s : State) :
    (s.setX r v).plic = s.plic := by unfold State.setX; split <;> rfl
@[simp] theorem State.setX_dma (r : Reg) (v : Word) (s : State) :
    (s.setX r v).dma = s.dma := by unfold State.setX; split <;> rfl
@[simp] theorem State.setX_trace (r : Reg) (v : Word) (s : State) :
    (s.setX r v).trace = s.trace := by unfold State.setX; split <;> rfl
@[simp] theorem State.setX_uart (r : Reg) (v : Word) (s : State) :
    (s.setX r v).uart = s.uart := by unfold State.setX; split <;> rfl
@[simp] theorem State.setX_hook (r : Reg) (v : Word) (s : State) :
    (s.setX r v).hook = s.hook := by unfold State.setX; split <;> rfl
@[simp] theorem State.setX_ex (r : Reg) (v : Word) (s : State) :
    (s.setX r v).ex = s.ex := by unfold State.setX; split <;> rfl
@[simp] theorem State.setX_outcome (r : Reg) (v : Word) (s : State) :
    (s.setX r v).outcome = s.outcome := by unfold State.setX; split <;> rfl
@[simp] theorem State.setX_draws (r : Reg) (v : Word) (s : State) :
    (s.setX r v).draws = s.draws := by unfold State.setX; split <;> rfl
@[simp] theorem State.setX_schedule (r : Reg) (v : Word) (s : State) :
    (s.setX r v).schedule = s.schedule := by unfold State.setX; split <;> rfl

/-! ### `State.writeCsr` -/

@[simp] theorem State.writeCsr_cfg (a : CsrAddr) (v : Word) (s : State) :
    (s.writeCsr a v).cfg = s.cfg := rfl
@[simp] theorem State.writeCsr_regs (a : CsrAddr) (v : Word) (s : State) :
    (s.writeCsr a v).regs = s.regs := rfl
@[simp] theorem State.writeCsr_csr (a : CsrAddr) (v : Word) (s : State) :
    (s.writeCsr a v).csr = s.csr.set a (s.cfg.xlen.wrap v) := rfl
@[simp] theorem State.writeCsr_reservation (a : CsrAddr) (v : Word) (s : State) :
    (s.writeCsr a v).reservation = s.reservation := rfl
@[simp] theorem State.writeCsr_two (a : CsrAddr) (v : Word) (s : State) :
    (s.writeCsr a v).two = s.two := rfl
@[simp] theorem State.writeCsr_six (a : CsrAddr) (v : Word) (s : State) :
    (s.writeCsr a v).six = s.six := rfl
@[simp] theorem State.writeCsr_irq (a : CsrAddr) (v : Word) (s : State) :
    (s.writeCsr a v).irq = s.irq := rfl
@[simp] theorem State.writeCsr_stats (a : CsrAddr) (v : Word) (s : State) :
    (s.writeCsr a v).stats = s.stats := rfl
@[simp] theorem State.writeCsr_dmi (a : CsrAddr) (v : Word) (s : State) :
    (s.writeCsr a v).dmi = s.dmi := rfl
@[simp] theorem State.writeCsr_dmiInvalidate (a : CsrAddr) (v : Word) (s : State) :
    (s.writeCsr a v).dmiInvalidate = s.dmiInvalidate := rfl
@[simp] theorem State.writeCsr_mem (a : CsrAddr) (v : Word) (s : State) :
    (s.writeCsr a v).mem = s.mem := rfl
@[simp] theorem State.writeCsr_timer (a : CsrAddr) (v : Word) (s : State) :
    (s.writeCsr a v).timer = s.timer := rfl
@[simp] theorem State.writeCsr_plic (a : CsrAddr) (v : Word) (s : State) :
    (s.writeCsr a v).plic = s.plic := rfl
@[simp] theorem State.writeCsr_dma (a : CsrAddr) (v : Word) (s : State) :
    (s.writeCsr a v).dma = s.dma := rfl
@[simp] theorem State.writeCsr_trace (a : CsrAddr) (v : Word) (s : State) :
    (s.writeCsr a v).trace = s.trace := rfl
@[simp] theorem State.writeCsr_uart (a : CsrAddr) (v : Word) (s : State) :
    (s.writeCsr a v).uart = s.uart := rfl
@[simp] theorem State.writeCsr_hook (a : CsrAddr) (v : Word) (s : State) :
    (s.writeCsr a v).hook = s.hook := rfl
@[simp] theorem State.writeCsr_ex (a : CsrAddr) (v : Word) (s : State) :
    (s.writeCsr a v).ex = s.ex := rfl
@[simp] theorem State.writeCsr_outcome (a : CsrAddr) (v : Word) (s : State) :
    (s.writeCsr a v).outcome = s.outcome := rfl
@[simp] theorem State.writeCsr_draws (a : CsrAddr) (v : Word) (s : State) :
    (s.writeCsr a v).draws = s.draws := rfl
@[simp] theorem State.writeCsr_schedule (a : CsrAddr) (v : Word) (s : State) :
    (s.writeCsr a v).schedule = s.schedule := rfl

/-! ### `State.withOutcome` -/

@[simp] theorem State.withOutcome_cfg (o : RunOutcome) (s : State) :
    (s.withOutcome o).cfg = s.cfg := rfl
@[simp] theorem State.withOutcome_regs (o : RunOutcome) (s : State) :
    (s.withOutcome o).regs = s.regs := rfl
@[simp] theorem State.withOutcome_csr (o : RunOutcome) (s : State) :
    (s.withOutcome o).csr = s.csr := rfl
@[simp] theorem State.withOutcome_reservation (o : RunOutcome) (s : State) :
    (s.withOutcome o).reservation = s.reservation := rfl
@[simp] theorem State.withOutcome_two (o : RunOutcome) (s : State) :
    (s.withOutcome o).two = s.two := rfl
@[simp] theorem State.withOutcome_six (o : RunOutcome) (s : State) :
    (s.withOutcome o).six = s.six := rfl
@[simp] theorem State.withOutcome_irq (o : RunOutcome) (s : State) :
    (s.withOutcome o).irq = s.irq := rfl
@[simp] theorem State.withOutcome_stats (o : RunOutcome) (s : State) :
    (s.withOutcome o).stats = s.stats := rfl
@[simp] theorem State.withOutcome_dmi (o : RunOutcome) (s : State) :
    (s.withOutcome o).dmi = s.dmi := rfl
@[simp] theorem State.withOutcome_dmiInvalidate (o : RunOutcome) (s : State) :
    (s.withOutcome o).dmiInvalidate = s.dmiInvalidate := rfl
@[simp] theorem State.withOutcome_mem (o : RunOutcome) (s : State) :
    (s.withOutcome o).mem = s.mem := rfl
@[simp] theorem State.withOutcome_timer (o : RunOutcome) (s : State) :
    (s.withOutcome o).timer = s.timer := rfl
@[simp] theorem State.withOutcome_plic (o : RunOutcome) (s : State) :
    (s.withOutcome o).plic = s.plic := rfl
@[simp] theorem State.withOutcome_dma (o : RunOutcome) (s : State) :
    (s.withOutcome o).dma = s.dma := rfl
@[simp] theorem State.withOutcome_trace (o : RunOutcome) (s : State) :
    (s.withOutcome o).trace = s.trace := rfl
@[simp] theorem State.withOutcome_uart (o : RunOutcome) (s : State) :
    (s.withOutcome o).uart = s.uart := rfl
@[simp] theorem State.withOutcome_hook (o : RunOutcome) (s : State) :
    (s.withOutcome o).hook = s.hook := rfl
@[simp] theorem State.withOutcome_ex (o : RunOutcome) (s : State) :
    (s.withOutcome o).ex = s.ex := rfl
@[simp] theorem State.withOutcome_outcome (o : RunOutcome) (s : State) :
    (s.withOutcome o).outcome = some (s.outcome.getD o) := rfl
@[simp] theorem State.withOutcome_draws (o : RunOutcome) (s : State) :
    (s.withOutcome o).draws = s.draws := rfl
@[simp] theorem State.withOutcome_schedule (o : RunOutcome) (s : State) :
    (s.withOutcome o).schedule = s.schedule := rfl

/-! ### `State.emitTrace` -/

@[simp] theorem State.emitTrace_cfg (b : Byte) (s : State) :
    (s.emitTrace b).cfg = s.cfg := rfl
@[simp] theorem State.emitTrace_regs (b : Byte) (s : State) :
    (s.emitTrace b).regs = s.regs := rfl
@[simp] theorem State.emitTrace_csr (b : Byte) (s : State) :
    (s.emitTrace b).csr = s.csr := rfl
@[simp] theorem State.emitTrace_reservation (b : Byte) (s : State) :
    (s.emitTrace b).reservation = s.reservation := rfl
@[simp] theorem State.emitTrace_two (b : Byte) (s : State) :
    (s.emitTrace b).two = s.two := rfl
@[simp] theorem State.emitTrace_six (b : Byte) (s : State) :
    (s.emitTrace b).six = s.six := rfl
@[simp] theorem State.emitTrace_irq (b : Byte) (s : State) :
    (s.emitTrace b).irq = s.irq := rfl
@[simp] theorem State.emitTrace_stats (b : Byte) (s : State) :
    (s.emitTrace b).stats = s.stats := rfl
@[simp] theorem State.emitTrace_dmi (b : Byte) (s : State) :
    (s.emitTrace b).dmi = s.dmi := rfl
@[simp] theorem State.emitTrace_dmiInvalidate (b : Byte) (s : State) :
    (s.emitTrace b).dmiInvalidate = s.dmiInvalidate := rfl
@[simp] theorem State.emitTrace_mem (b : Byte) (s : State) :
    (s.emitTrace b).mem = s.mem := rfl
@[simp] theorem State.emitTrace_timer (b : Byte) (s : State) :
    (s.emitTrace b).timer = s.timer := rfl
@[simp] theorem State.emitTrace_plic (b : Byte) (s : State) :
    (s.emitTrace b).plic = s.plic := rfl
@[simp] theorem State.emitTrace_dma (b : Byte) (s : State) :
    (s.emitTrace b).dma = s.dma := rfl
@[simp] theorem State.emitTrace_trace (b : Byte) (s : State) :
    (s.emitTrace b).trace = s.trace ++ [b] := rfl
@[simp] theorem State.emitTrace_uart (b : Byte) (s : State) :
    (s.emitTrace b).uart = s.uart := rfl
@[simp] theorem State.emitTrace_hook (b : Byte) (s : State) :
    (s.emitTrace b).hook = s.hook := rfl
@[simp] theorem State.emitTrace_ex (b : Byte) (s : State) :
    (s.emitTrace b).ex = s.ex := rfl
@[simp] theorem State.emitTrace_outcome (b : Byte) (s : State) :
    (s.emitTrace b).outcome = s.outcome := rfl
@[simp] theorem State.emitTrace_draws (b : Byte) (s : State) :
    (s.emitTrace b).draws = s.draws := rfl
@[simp] theorem State.emitTrace_schedule (b : Byte) (s : State) :
    (s.emitTrace b).schedule = s.schedule := rfl

/-! ### `State.emitUart` -/

@[simp] theorem State.emitUart_cfg (b : Byte) (s : State) :
    (s.emitUart b).cfg = s.cfg := rfl
@[simp] theorem State.emitUart_regs (b : Byte) (s : State) :
    (s.emitUart b).regs = s.regs := rfl
@[simp] theorem State.emitUart_csr (b : Byte) (s : State) :
    (s.emitUart b).csr = s.csr := rfl
@[simp] theorem State.emitUart_reservation (b : Byte) (s : State) :
    (s.emitUart b).reservation = s.reservation := rfl
@[simp] theorem State.emitUart_two (b : Byte) (s : State) :
    (s.emitUart b).two = s.two := rfl
@[simp] theorem State.emitUart_six (b : Byte) (s : State) :
    (s.emitUart b).six = s.six := rfl
@[simp] theorem State.emitUart_irq (b : Byte) (s : State) :
    (s.emitUart b).irq = s.irq := rfl
@[simp] theorem State.emitUart_stats (b : Byte) (s : State) :
    (s.emitUart b).stats = s.stats := rfl
@[simp] theorem State.emitUart_dmi (b : Byte) (s : State) :
    (s.emitUart b).dmi = s.dmi := rfl
@[simp] theorem State.emitUart_dmiInvalidate (b : Byte) (s : State) :
    (s.emitUart b).dmiInvalidate = s.dmiInvalidate := rfl
@[simp] theorem State.emitUart_mem (b : Byte) (s : State) :
    (s.emitUart b).mem = s.mem := rfl
@[simp] theorem State.emitUart_timer (b : Byte) (s : State) :
    (s.emitUart b).timer = s.timer := rfl
@[simp] theorem State.emitUart_plic (b : Byte) (s : State) :
    (s.emitUart b).plic = s.plic := rfl
@[simp] theorem State.emitUart_dma (b : Byte) (s : State) :
    (s.emitUart b).dma = s.dma := rfl
@[simp] theorem State.emitUart_trace (b : Byte) (s : State) :
    (s.emitUart b).trace = s.trace := rfl
@[simp] theorem State.emitUart_uart (b : Byte) (s : State) :
    (s.emitUart b).uart = s.uart ++ [b] := rfl
@[simp] theorem State.emitUart_hook (b : Byte) (s : State) :
    (s.emitUart b).hook = s.hook := rfl
@[simp] theorem State.emitUart_ex (b : Byte) (s : State) :
    (s.emitUart b).ex = s.ex := rfl
@[simp] theorem State.emitUart_outcome (b : Byte) (s : State) :
    (s.emitUart b).outcome = s.outcome := rfl
@[simp] theorem State.emitUart_draws (b : Byte) (s : State) :
    (s.emitUart b).draws = s.draws := rfl
@[simp] theorem State.emitUart_schedule (b : Byte) (s : State) :
    (s.emitUart b).schedule = s.schedule := rfl

/-! ### `State.jumpTo` -/

@[simp] theorem State.jumpTo_cfg (t : Word) (s : State) :
    (s.jumpTo t).cfg = s.cfg := rfl
@[simp] theorem State.jumpTo_regs (t : Word) (s : State) :
    (s.jumpTo t).regs = s.regs := rfl
@[simp] theorem State.jumpTo_csr (t : Word) (s : State) :
    (s.jumpTo t).csr = s.csr := rfl
@[simp] theorem State.jumpTo_reservation (t : Word) (s : State) :
    (s.jumpTo t).reservation = s.reservation := rfl
@[simp] theorem State.jumpTo_two (t : Word) (s : State) :
    (s.jumpTo t).two = s.two := rfl
@[simp] theorem State.jumpTo_six (t : Word) (s : State) :
    (s.jumpTo t).six = s.six := rfl
@[simp] theorem State.jumpTo_irq (t : Word) (s : State) :
    (s.jumpTo t).irq = s.irq := rfl
@[simp] theorem State.jumpTo_stats (t : Word) (s : State) :
    (s.jumpTo t).stats = s.stats := rfl
@[simp] theorem State.jumpTo_dmi (t : Word) (s : State) :
    (s.jumpTo t).dmi = s.dmi := rfl
@[simp] theorem State.jumpTo_dmiInvalidate (t : Word) (s : State) :
    (s.jumpTo t).dmiInvalidate = s.dmiInvalidate := rfl
@[simp] theorem State.jumpTo_mem (t : Word) (s : State) :
    (s.jumpTo t).mem = s.mem := rfl
@[simp] theorem State.jumpTo_timer (t : Word) (s : State) :
    (s.jumpTo t).timer = s.timer := rfl
@[simp] theorem State.jumpTo_plic (t : Word) (s : State) :
    (s.jumpTo t).plic = s.plic := rfl
@[simp] theorem State.jumpTo_dma (t : Word) (s : State) :
    (s.jumpTo t).dma = s.dma := rfl
@[simp] theorem State.jumpTo_trace (t : Word) (s : State) :
    (s.jumpTo t).trace = s.trace := rfl
@[simp] theorem State.jumpTo_uart (t : Word) (s : State) :
    (s.jumpTo t).uart = s.uart := rfl
@[simp] theorem State.jumpTo_hook (t : Word) (s : State) :
    (s.jumpTo t).hook = s.hook := rfl
@[simp] theorem State.jumpTo_ex (t : Word) (s : State) :
    (s.jumpTo t).ex = { s.ex with target := some t } := rfl
@[simp] theorem State.jumpTo_outcome (t : Word) (s : State) :
    (s.jumpTo t).outcome = s.outcome := rfl
@[simp] theorem State.jumpTo_draws (t : Word) (s : State) :
    (s.jumpTo t).draws = s.draws := rfl
@[simp] theorem State.jumpTo_schedule (t : Word) (s : State) :
    (s.jumpTo t).schedule = s.schedule := rfl

/-! ### `State.requestStop` -/

@[simp] theorem State.requestStop_cfg (o : RunOutcome) (s : State) :
    (s.requestStop o).cfg = s.cfg := rfl
@[simp] theorem State.requestStop_regs (o : RunOutcome) (s : State) :
    (s.requestStop o).regs = s.regs := rfl
@[simp] theorem State.requestStop_csr (o : RunOutcome) (s : State) :
    (s.requestStop o).csr = s.csr := rfl
@[simp] theorem State.requestStop_reservation (o : RunOutcome) (s : State) :
    (s.requestStop o).reservation = s.reservation := rfl
@[simp] theorem State.requestStop_two (o : RunOutcome) (s : State) :
    (s.requestStop o).two = s.two := rfl
@[simp] theorem State.requestStop_six (o : RunOutcome) (s : State) :
    (s.requestStop o).six = s.six := rfl
@[simp] theorem State.requestStop_irq (o : RunOutcome) (s : State) :
    (s.requestStop o).irq = s.irq := rfl
@[simp] theorem State.requestStop_stats (o : RunOutcome) (s : State) :
    (s.requestStop o).stats = s.stats := rfl
@[simp] theorem State.requestStop_dmi (o : RunOutcome) (s : State) :
    (s.requestStop o).dmi = s.dmi := rfl
@[simp] theorem State.requestStop_dmiInvalidate (o : RunOutcome) (s : State) :
    (s.requestStop o).dmiInvalidate = s.dmiInvalidate := rfl
@[simp] theorem State.requestStop_mem (o : RunOutcome) (s : State) :
    (s.requestStop o).mem = s.mem := rfl
@[simp] theorem State.requestStop_timer (o : RunOutcome) (s : State) :
    (s.requestStop o).timer = s.timer := rfl
@[simp] theorem State.requestStop_plic (o : RunOutcome) (s : State) :
    (s.requestStop o).plic = s.plic := rfl
@[simp] theorem State.requestStop_dma (o : RunOutcome) (s : State) :
    (s.requestStop o).dma = s.dma := rfl
@[simp] theorem State.requestStop_trace (o : RunOutcome) (s : State) :
    (s.requestStop o).trace = s.trace := rfl
@[simp] theorem State.requestStop_uart (o : RunOutcome) (s : State) :
    (s.requestStop o).uart = s.uart := rfl
@[simp] theorem State.requestStop_hook (o : RunOutcome) (s : State) :
    (s.requestStop o).hook = s.hook := rfl
@[simp] theorem State.requestStop_ex (o : RunOutcome) (s : State) :
    (s.requestStop o).ex = { s.ex with stop := some o } := rfl
@[simp] theorem State.requestStop_outcome (o : RunOutcome) (s : State) :
    (s.requestStop o).outcome = s.outcome := rfl
@[simp] theorem State.requestStop_draws (o : RunOutcome) (s : State) :
    (s.requestStop o).draws = s.draws := rfl
@[simp] theorem State.requestStop_schedule (o : RunOutcome) (s : State) :
    (s.requestStop o).schedule = s.schedule := rfl

/-! ### `State.breakpoint` -/

@[simp] theorem State.breakpoint_cfg (s : State) :
    (s.breakpoint).cfg = s.cfg := rfl
@[simp] theorem State.breakpoint_regs (s : State) :
    (s.breakpoint).regs = s.regs := rfl
@[simp] theorem State.breakpoint_csr (s : State) :
    (s.breakpoint).csr = s.csr := rfl
@[simp] theorem State.breakpoint_reservation (s : State) :
    (s.breakpoint).reservation = s.reservation := rfl
@[simp] theorem State.breakpoint_two (s : State) :
    (s.breakpoint).two = s.two := rfl
@[simp] theorem State.breakpoint_six (s : State) :
    (s.breakpoint).six = s.six := rfl
@[simp] theorem State.breakpoint_irq (s : State) :
    (s.breakpoint).irq = s.irq := rfl
@[simp] theorem State.breakpoint_stats (s : State) :
    (s.breakpoint).stats = s.stats := rfl
@[simp] theorem State.breakpoint_dmi (s : State) :
    (s.breakpoint).dmi = s.dmi := rfl
@[simp] theorem State.breakpoint_dmiInvalidate (s : State) :
    (s.breakpoint).dmiInvalidate = s.dmiInvalidate := rfl
@[simp] theorem State.breakpoint_mem (s : State) :
    (s.breakpoint).mem = s.mem := rfl
@[simp] theorem State.breakpoint_timer (s : State) :
    (s.breakpoint).timer = s.timer := rfl
@[simp] theorem State.breakpoint_plic (s : State) :
    (s.breakpoint).plic = s.plic := rfl
@[simp] theorem State.breakpoint_dma (s : State) :
    (s.breakpoint).dma = s.dma := rfl
@[simp] theorem State.breakpoint_trace (s : State) :
    (s.breakpoint).trace = s.trace := rfl
@[simp] theorem State.breakpoint_uart (s : State) :
    (s.breakpoint).uart = s.uart := rfl
@[simp] theorem State.breakpoint_hook (s : State) :
    (s.breakpoint).hook = s.hook := rfl
@[simp] theorem State.breakpoint_ex (s : State) :
    (s.breakpoint).ex = { s.ex with breakpoint := true, stop := some .halted } := rfl
@[simp] theorem State.breakpoint_outcome (s : State) :
    (s.breakpoint).outcome = s.outcome := rfl
@[simp] theorem State.breakpoint_draws (s : State) :
    (s.breakpoint).draws = s.draws := rfl
@[simp] theorem State.breakpoint_schedule (s : State) :
    (s.breakpoint).schedule = s.schedule := rfl

/-! ### `State.reserve` -/

@[simp] theorem State.reserve_cfg (r : Option Reservation) (s : State) :
    (s.reserve r).cfg = s.cfg := rfl
@[simp] theorem State.reserve_regs (r : Option Reservation) (s : State) :
    (s.reserve r).regs = s.regs := rfl
@[simp] theorem State.reserve_csr (r : Option Reservation) (s : State) :
    (s.reserve r).csr = s.csr := rfl
@[simp] theorem State.reserve_reservation (r : Option Reservation) (s : State) :
    (s.reserve r).reservation = r := rfl
@[simp] theorem State.reserve_two (r : Option Reservation) (s : State) :
    (s.reserve r).two = s.two := rfl
@[simp] theorem State.reserve_six (r : Option Reservation) (s : State) :
    (s.reserve r).six = s.six := rfl
@[simp] theorem State.reserve_irq (r : Option Reservation) (s : State) :
    (s.reserve r).irq = s.irq := rfl
@[simp] theorem State.reserve_stats (r : Option Reservation) (s : State) :
    (s.reserve r).stats = s.stats := rfl
@[simp] theorem State.reserve_dmi (r : Option Reservation) (s : State) :
    (s.reserve r).dmi = s.dmi := rfl
@[simp] theorem State.reserve_dmiInvalidate (r : Option Reservation) (s : State) :
    (s.reserve r).dmiInvalidate = s.dmiInvalidate := rfl
@[simp] theorem State.reserve_mem (r : Option Reservation) (s : State) :
    (s.reserve r).mem = s.mem := rfl
@[simp] theorem State.reserve_timer (r : Option Reservation) (s : State) :
    (s.reserve r).timer = s.timer := rfl
@[simp] theorem State.reserve_plic (r : Option Reservation) (s : State) :
    (s.reserve r).plic = s.plic := rfl
@[simp] theorem State.reserve_dma (r : Option Reservation) (s : State) :
    (s.reserve r).dma = s.dma := rfl
@[simp] theorem State.reserve_trace (r : Option Reservation) (s : State) :
    (s.reserve r).trace = s.trace := rfl
@[simp] theorem State.reserve_uart (r : Option Reservation) (s : State) :
    (s.reserve r).uart = s.uart := rfl
@[simp] theorem State.reserve_hook (r : Option Reservation) (s : State) :
    (s.reserve r).hook = s.hook := rfl
@[simp] theorem State.reserve_ex (r : Option Reservation) (s : State) :
    (s.reserve r).ex = s.ex := rfl
@[simp] theorem State.reserve_outcome (r : Option Reservation) (s : State) :
    (s.reserve r).outcome = s.outcome := rfl
@[simp] theorem State.reserve_draws (r : Option Reservation) (s : State) :
    (s.reserve r).draws = s.draws := rfl
@[simp] theorem State.reserve_schedule (r : Option Reservation) (s : State) :
    (s.reserve r).schedule = s.schedule := rfl

/-! ### `State.writeDest` -/

@[simp] theorem State.writeDest_cfg (r : Reg) (v : Word) (s : State) :
    (s.writeDest r v).cfg = s.cfg := by unfold State.writeDest; split <;> simp [setRobResult]
@[simp] theorem State.writeDest_csr (r : Reg) (v : Word) (s : State) :
    (s.writeDest r v).csr = s.csr := by unfold State.writeDest; split <;> simp [setRobResult]
@[simp] theorem State.writeDest_reservation (r : Reg) (v : Word) (s : State) :
    (s.writeDest r v).reservation = s.reservation := by unfold State.writeDest; split <;> simp [setRobResult]
@[simp] theorem State.writeDest_two (r : Reg) (v : Word) (s : State) :
    (s.writeDest r v).two = s.two := by unfold State.writeDest; split <;> simp [setRobResult]
@[simp] theorem State.writeDest_irq (r : Reg) (v : Word) (s : State) :
    (s.writeDest r v).irq = s.irq := by unfold State.writeDest; split <;> simp [setRobResult]
@[simp] theorem State.writeDest_stats (r : Reg) (v : Word) (s : State) :
    (s.writeDest r v).stats = s.stats := by unfold State.writeDest; split <;> simp [setRobResult]
@[simp] theorem State.writeDest_dmi (r : Reg) (v : Word) (s : State) :
    (s.writeDest r v).dmi = s.dmi := by unfold State.writeDest; split <;> simp [setRobResult]
@[simp] theorem State.writeDest_dmiInvalidate (r : Reg) (v : Word) (s : State) :
    (s.writeDest r v).dmiInvalidate = s.dmiInvalidate := by unfold State.writeDest; split <;> simp [setRobResult]
@[simp] theorem State.writeDest_mem (r : Reg) (v : Word) (s : State) :
    (s.writeDest r v).mem = s.mem := by unfold State.writeDest; split <;> simp [setRobResult]
@[simp] theorem State.writeDest_timer (r : Reg) (v : Word) (s : State) :
    (s.writeDest r v).timer = s.timer := by unfold State.writeDest; split <;> simp [setRobResult]
@[simp] theorem State.writeDest_plic (r : Reg) (v : Word) (s : State) :
    (s.writeDest r v).plic = s.plic := by unfold State.writeDest; split <;> simp [setRobResult]
@[simp] theorem State.writeDest_dma (r : Reg) (v : Word) (s : State) :
    (s.writeDest r v).dma = s.dma := by unfold State.writeDest; split <;> simp [setRobResult]
@[simp] theorem State.writeDest_trace (r : Reg) (v : Word) (s : State) :
    (s.writeDest r v).trace = s.trace := by unfold State.writeDest; split <;> simp [setRobResult]
@[simp] theorem State.writeDest_uart (r : Reg) (v : Word) (s : State) :
    (s.writeDest r v).uart = s.uart := by unfold State.writeDest; split <;> simp [setRobResult]
@[simp] theorem State.writeDest_hook (r : Reg) (v : Word) (s : State) :
    (s.writeDest r v).hook = s.hook := by unfold State.writeDest; split <;> simp [setRobResult]
@[simp] theorem State.writeDest_ex (r : Reg) (v : Word) (s : State) :
    (s.writeDest r v).ex = s.ex := by unfold State.writeDest; split <;> simp [setRobResult]
@[simp] theorem State.writeDest_outcome (r : Reg) (v : Word) (s : State) :
    (s.writeDest r v).outcome = s.outcome := by unfold State.writeDest; split <;> simp [setRobResult]
@[simp] theorem State.writeDest_draws (r : Reg) (v : Word) (s : State) :
    (s.writeDest r v).draws = s.draws := by unfold State.writeDest; split <;> simp [setRobResult]
@[simp] theorem State.writeDest_schedule (r : Reg) (v : Word) (s : State) :
    (s.writeDest r v).schedule = s.schedule := by unfold State.writeDest; split <;> simp [setRobResult]

/-! ### `State.cancelStore` -/

@[simp] theorem State.cancelStore_cfg (s : State) :
    (s.cancelStore).cfg = s.cfg := by unfold State.cancelStore; split <;> rfl
@[simp] theorem State.cancelStore_regs (s : State) :
    (s.cancelStore).regs = s.regs := by unfold State.cancelStore; split <;> rfl
@[simp] theorem State.cancelStore_csr (s : State) :
    (s.cancelStore).csr = s.csr := by unfold State.cancelStore; split <;> rfl
@[simp] theorem State.cancelStore_reservation (s : State) :
    (s.cancelStore).reservation = s.reservation := by unfold State.cancelStore; split <;> rfl
@[simp] theorem State.cancelStore_two (s : State) :
    (s.cancelStore).two = s.two := by unfold State.cancelStore; split <;> rfl
@[simp] theorem State.cancelStore_irq (s : State) :
    (s.cancelStore).irq = s.irq := by unfold State.cancelStore; split <;> rfl
@[simp] theorem State.cancelStore_stats (s : State) :
    (s.cancelStore).stats = s.stats := by unfold State.cancelStore; split <;> rfl
@[simp] theorem State.cancelStore_dmi (s : State) :
    (s.cancelStore).dmi = s.dmi := by unfold State.cancelStore; split <;> rfl
@[simp] theorem State.cancelStore_dmiInvalidate (s : State) :
    (s.cancelStore).dmiInvalidate = s.dmiInvalidate := by unfold State.cancelStore; split <;> rfl
@[simp] theorem State.cancelStore_mem (s : State) :
    (s.cancelStore).mem = s.mem := by unfold State.cancelStore; split <;> rfl
@[simp] theorem State.cancelStore_timer (s : State) :
    (s.cancelStore).timer = s.timer := by unfold State.cancelStore; split <;> rfl
@[simp] theorem State.cancelStore_plic (s : State) :
    (s.cancelStore).plic = s.plic := by unfold State.cancelStore; split <;> rfl
@[simp] theorem State.cancelStore_dma (s : State) :
    (s.cancelStore).dma = s.dma := by unfold State.cancelStore; split <;> rfl
@[simp] theorem State.cancelStore_trace (s : State) :
    (s.cancelStore).trace = s.trace := by unfold State.cancelStore; split <;> rfl
@[simp] theorem State.cancelStore_uart (s : State) :
    (s.cancelStore).uart = s.uart := by unfold State.cancelStore; split <;> rfl
@[simp] theorem State.cancelStore_hook (s : State) :
    (s.cancelStore).hook = s.hook := by unfold State.cancelStore; split <;> rfl
@[simp] theorem State.cancelStore_ex (s : State) :
    (s.cancelStore).ex = s.ex := by unfold State.cancelStore; split <;> rfl
@[simp] theorem State.cancelStore_outcome (s : State) :
    (s.cancelStore).outcome = s.outcome := by unfold State.cancelStore; split <;> rfl
@[simp] theorem State.cancelStore_draws (s : State) :
    (s.cancelStore).draws = s.draws := by unfold State.cancelStore; split <;> rfl
@[simp] theorem State.cancelStore_schedule (s : State) :
    (s.cancelStore).schedule = s.schedule := by unfold State.cancelStore; split <;> rfl

/-! ### `State.countRetired` -/

@[simp] theorem State.countRetired_cfg (s : State) :
    (s.countRetired).cfg = s.cfg := rfl
@[simp] theorem State.countRetired_regs (s : State) :
    (s.countRetired).regs = s.regs := rfl
@[simp] theorem State.countRetired_csr (s : State) :
    (s.countRetired).csr = s.csr := rfl
@[simp] theorem State.countRetired_reservation (s : State) :
    (s.countRetired).reservation = s.reservation := rfl
@[simp] theorem State.countRetired_two (s : State) :
    (s.countRetired).two = s.two := rfl
@[simp] theorem State.countRetired_six (s : State) :
    (s.countRetired).six = s.six := rfl
@[simp] theorem State.countRetired_irq (s : State) :
    (s.countRetired).irq = s.irq := rfl
@[simp] theorem State.countRetired_stats (s : State) :
    (s.countRetired).stats = { s.stats with retired := s.stats.retired + 1 } := rfl
@[simp] theorem State.countRetired_dmi (s : State) :
    (s.countRetired).dmi = s.dmi := rfl
@[simp] theorem State.countRetired_dmiInvalidate (s : State) :
    (s.countRetired).dmiInvalidate = s.dmiInvalidate := rfl
@[simp] theorem State.countRetired_mem (s : State) :
    (s.countRetired).mem = s.mem := rfl
@[simp] theorem State.countRetired_timer (s : State) :
    (s.countRetired).timer = s.timer := rfl
@[simp] theorem State.countRetired_plic (s : State) :
    (s.countRetired).plic = s.plic := rfl
@[simp] theorem State.countRetired_dma (s : State) :
    (s.countRetired).dma = s.dma := rfl
@[simp] theorem State.countRetired_trace (s : State) :
    (s.countRetired).trace = s.trace := rfl
@[simp] theorem State.countRetired_uart (s : State) :
    (s.countRetired).uart = s.uart := rfl
@[simp] theorem State.countRetired_hook (s : State) :
    (s.countRetired).hook = s.hook := rfl
@[simp] theorem State.countRetired_ex (s : State) :
    (s.countRetired).ex = s.ex := rfl
@[simp] theorem State.countRetired_outcome (s : State) :
    (s.countRetired).outcome = s.outcome := rfl
@[simp] theorem State.countRetired_draws (s : State) :
    (s.countRetired).draws = s.draws := rfl
@[simp] theorem State.countRetired_schedule (s : State) :
    (s.countRetired).schedule = s.schedule := rfl

/-! ### `State.countRedirect` -/

@[simp] theorem State.countRedirect_cfg (s : State) :
    (s.countRedirect).cfg = s.cfg := rfl
@[simp] theorem State.countRedirect_regs (s : State) :
    (s.countRedirect).regs = s.regs := rfl
@[simp] theorem State.countRedirect_csr (s : State) :
    (s.countRedirect).csr = s.csr := rfl
@[simp] theorem State.countRedirect_reservation (s : State) :
    (s.countRedirect).reservation = s.reservation := rfl
@[simp] theorem State.countRedirect_two (s : State) :
    (s.countRedirect).two = s.two := rfl
@[simp] theorem State.countRedirect_six (s : State) :
    (s.countRedirect).six = s.six := rfl
@[simp] theorem State.countRedirect_irq (s : State) :
    (s.countRedirect).irq = s.irq := rfl
@[simp] theorem State.countRedirect_stats (s : State) :
    (s.countRedirect).stats = { s.stats with flushes := s.stats.flushes + 1, controlHazards := s.stats.controlHazards + 1 } := rfl
@[simp] theorem State.countRedirect_dmi (s : State) :
    (s.countRedirect).dmi = s.dmi := rfl
@[simp] theorem State.countRedirect_dmiInvalidate (s : State) :
    (s.countRedirect).dmiInvalidate = s.dmiInvalidate := rfl
@[simp] theorem State.countRedirect_mem (s : State) :
    (s.countRedirect).mem = s.mem := rfl
@[simp] theorem State.countRedirect_timer (s : State) :
    (s.countRedirect).timer = s.timer := rfl
@[simp] theorem State.countRedirect_plic (s : State) :
    (s.countRedirect).plic = s.plic := rfl
@[simp] theorem State.countRedirect_dma (s : State) :
    (s.countRedirect).dma = s.dma := rfl
@[simp] theorem State.countRedirect_trace (s : State) :
    (s.countRedirect).trace = s.trace := rfl
@[simp] theorem State.countRedirect_uart (s : State) :
    (s.countRedirect).uart = s.uart := rfl
@[simp] theorem State.countRedirect_hook (s : State) :
    (s.countRedirect).hook = s.hook := rfl
@[simp] theorem State.countRedirect_ex (s : State) :
    (s.countRedirect).ex = s.ex := rfl
@[simp] theorem State.countRedirect_outcome (s : State) :
    (s.countRedirect).outcome = s.outcome := rfl
@[simp] theorem State.countRedirect_draws (s : State) :
    (s.countRedirect).draws = s.draws := rfl
@[simp] theorem State.countRedirect_schedule (s : State) :
    (s.countRedirect).schedule = s.schedule := rfl

/-! ### `State.countStall` -/

@[simp] theorem State.countStall_cfg (s : State) :
    (s.countStall).cfg = s.cfg := rfl
@[simp] theorem State.countStall_regs (s : State) :
    (s.countStall).regs = s.regs := rfl
@[simp] theorem State.countStall_csr (s : State) :
    (s.countStall).csr = s.csr := rfl
@[simp] theorem State.countStall_reservation (s : State) :
    (s.countStall).reservation = s.reservation := rfl
@[simp] theorem State.countStall_two (s : State) :
    (s.countStall).two = s.two := rfl
@[simp] theorem State.countStall_six (s : State) :
    (s.countStall).six = s.six := rfl
@[simp] theorem State.countStall_irq (s : State) :
    (s.countStall).irq = s.irq := rfl
@[simp] theorem State.countStall_stats (s : State) :
    (s.countStall).stats = { s.stats with stalls := s.stats.stalls + 1 } := rfl
@[simp] theorem State.countStall_dmi (s : State) :
    (s.countStall).dmi = s.dmi := rfl
@[simp] theorem State.countStall_dmiInvalidate (s : State) :
    (s.countStall).dmiInvalidate = s.dmiInvalidate := rfl
@[simp] theorem State.countStall_mem (s : State) :
    (s.countStall).mem = s.mem := rfl
@[simp] theorem State.countStall_timer (s : State) :
    (s.countStall).timer = s.timer := rfl
@[simp] theorem State.countStall_plic (s : State) :
    (s.countStall).plic = s.plic := rfl
@[simp] theorem State.countStall_dma (s : State) :
    (s.countStall).dma = s.dma := rfl
@[simp] theorem State.countStall_trace (s : State) :
    (s.countStall).trace = s.trace := rfl
@[simp] theorem State.countStall_uart (s : State) :
    (s.countStall).uart = s.uart := rfl
@[simp] theorem State.countStall_hook (s : State) :
    (s.countStall).hook = s.hook := rfl
@[simp] theorem State.countStall_ex (s : State) :
    (s.countStall).ex = s.ex := rfl
@[simp] theorem State.countStall_outcome (s : State) :
    (s.countStall).outcome = s.outcome := rfl
@[simp] theorem State.countStall_draws (s : State) :
    (s.countStall).draws = s.draws := rfl
@[simp] theorem State.countStall_schedule (s : State) :
    (s.countStall).schedule = s.schedule := rfl

end Sys2Proof.Machine
end

