-- ==== Sys2Proof/Laws/Memory.lean ====
section
/-! SUPPORT. The laws of sparse storage, of main memory and of the byte order: read after write, writes elsewhere, the
canonical form. -/

namespace Sys2Proof.Machine

/-! ### Sparse tables -/

theorem sparseAbove_mono {n : Nat} {lo lo' : Nat} (h : lo' ≤ lo) {l : List (Nat × BitVec n)} (hl : sparseAbove lo l) :
    sparseAbove lo' l := by
  cases l with
  | nil => rfl
  | cons p rest => obtain ⟨a, v⟩ := p; simp_all [sparseAbove]; omega

theorem sparseGet_eq_zero_of_above {n : Nat} {lo k : Nat} (hk : k ≤ lo) {l : List (Nat × BitVec n)}
    (hl : sparseAbove lo l) : sparseGet l k = 0 := by
  induction l generalizing lo with
  | nil => rfl
  | cons p rest ih =>
    obtain ⟨a, v⟩ := p
    simp only [sparseAbove, Bool.and_eq_true, decide_eq_true_eq] at hl
    rw [sparseGet, if_neg (by omega), ih (by omega) hl.2]

theorem sparseWf_of_above {n : Nat} {lo : Nat} {l : List (Nat × BitVec n)} (hl : sparseAbove lo l) : sparseWf l := by
  cases l with
  | nil => rfl
  | cons p rest => obtain ⟨a, v⟩ := p; simp_all [sparseAbove, sparseWf]

theorem sparseAbove_cons {n : Nat} {lo k : Nat} (v : BitVec n) {l : List (Nat × BitVec n)} (hk : lo < k)
    (hl : sparseAbove k l) : sparseAbove lo (sparseCons k v l) := by
  unfold sparseCons
  split
  · exact sparseAbove_mono (by omega) hl
  · simp_all [sparseAbove]

theorem sparseAbove_set {n : Nat} {lo k : Nat} (v : BitVec n) {l : List (Nat × BitVec n)} (hk : lo < k)
    (hl : sparseAbove lo l) : sparseAbove lo (sparseSet l k v) := by
  induction l generalizing lo with
  | nil => exact sparseAbove_cons v hk rfl
  | cons p rest ih =>
    obtain ⟨a, w⟩ := p
    have hl' := hl
    simp only [sparseAbove, Bool.and_eq_true, decide_eq_true_eq] at hl'
    unfold sparseSet
    split
    · exact sparseAbove_cons v hk (by simp_all [sparseAbove])
    · split
      · subst_vars; exact sparseAbove_cons v hk hl'.2
      · simp only [sparseAbove, Bool.and_eq_true, decide_eq_true_eq]
        exact ⟨hl'.1, ih (by omega) hl'.2⟩

/-- Storing keeps the canonical form. -/
theorem sparseWf_set {n : Nat} (l : List (Nat × BitVec n)) (k : Nat) (v : BitVec n) (hl : sparseWf l) :
    sparseWf (sparseSet l k v) := by
  cases l with
  | nil => unfold sparseSet sparseCons; split <;> simp_all [sparseWf, sparseAbove]
  | cons p rest =>
    obtain ⟨a, w⟩ := p
    have hl' := hl
    simp only [sparseWf, Bool.and_eq_true, decide_eq_true_eq] at hl'
    unfold sparseSet
    split
    · unfold sparseCons; split
      · exact hl
      · simp_all [sparseWf, sparseAbove]
    · split
      · unfold sparseCons; split
        · exact sparseWf_of_above hl'.2
        · subst_vars; simp_all [sparseWf]
      · simp only [sparseWf, Bool.and_eq_true, decide_eq_true_eq]
        exact ⟨hl'.1, sparseAbove_set v (by omega) hl'.2⟩

theorem sparseGet_cons {n : Nat} {k : Nat} (v : BitVec n) {l : List (Nat × BitVec n)} (hl : sparseAbove k l) (j : Nat) :
    sparseGet (sparseCons k v l) j = if k = j then v else sparseGet l j := by
  unfold sparseCons
  by_cases hv : v = 0
  · rw [if_pos hv]
    split
    · rw [sparseGet_eq_zero_of_above (by omega) hl, hv]
    · rfl
  · rw [if_neg hv, sparseGet]

theorem sparseGet_set_above {n : Nat} {lo k : Nat} (v : BitVec n) {l : List (Nat × BitVec n)} (hl : sparseAbove lo l)
    (j : Nat) : sparseGet (sparseSet l k v) j = if k = j then v else sparseGet l j := by
  induction l generalizing lo with
  | nil => exact sparseGet_cons v rfl j
  | cons p rest ih =>
    obtain ⟨a, w⟩ := p
    have hl' := hl
    simp only [sparseAbove, Bool.and_eq_true, decide_eq_true_eq] at hl'
    unfold sparseSet
    split
    · exact sparseGet_cons v (by simp_all [sparseAbove]) j
    · split
      · subst_vars
        rw [sparseGet_cons v hl'.2, sparseGet]
        split <;> rfl
      · rw [sparseGet, ih hl'.2, sparseGet]
        by_cases h1 : a = j <;> by_cases h2 : k = j <;> simp_all

/-- Reading after storing: the value stored there, every other key as before. -/
theorem sparseGet_set {n : Nat} {l : List (Nat × BitVec n)} (hl : sparseWf l) (k : Nat) (v : BitVec n) (j : Nat) :
    sparseGet (sparseSet l k v) j = if k = j then v else sparseGet l j := by
  cases l with
  | nil => exact sparseGet_cons v rfl j
  | cons p rest =>
    obtain ⟨a, w⟩ := p
    have hl' := hl
    simp only [sparseWf, Bool.and_eq_true, decide_eq_true_eq] at hl'
    unfold sparseSet
    split
    · exact sparseGet_cons v (by simp_all [sparseAbove]) j
    · split
      · subst_vars
        rw [sparseGet_cons v hl'.2, sparseGet]
        split <;> rfl
      · rw [sparseGet, sparseGet_set_above v hl'.2, sparseGet]
        by_cases h1 : a = j <;> by_cases h2 : k = j <;> simp_all

/-! ### Main memory -/

theorem Memory.wf_setByte {m : Memory} (h : m.wf) (a : Nat) (b : Byte) : (m.setByte a b).wf := sparseWf_set m a b h

theorem Memory.byte_setByte {m : Memory} (h : m.wf) (a : Nat) (b : Byte) (j : Nat) :
    (m.setByte a b).byte j = if a = j then b else m.byte j := sparseGet_set h a b j

theorem Memory.wf_writeFrom (xl : XLen) {m : Memory} (h : m.wf) (a : Word) (i : Nat) (bs : List Byte) :
    (m.writeFrom xl a i bs).wf := by
  induction bs generalizing m i with
  | nil => exact h
  | cons b bs ih => exact ih (Memory.wf_setByte h _ b) _

/-- Writing bytes keeps the canonical form. -/
theorem Memory.wf_writeBytes (xl : XLen) {m : Memory} (h : m.wf) (a : Word) (bs : List Byte) :
    (m.writeBytes xl a bs).wf := Memory.wf_writeFrom xl h a 0 bs

theorem Memory.byte_writeFrom_other (xl : XLen) {m : Memory} (h : m.wf) (a : Word) (i : Nat) (bs : List Byte) (j : Nat)
    (hj : ∀ k, k < bs.length → addrAt xl a (i + k) ≠ j) : (m.writeFrom xl a i bs).byte j = m.byte j := by
  induction bs generalizing m i with
  | nil => rfl
  | cons b bs ih =>
    rw [Memory.writeFrom, ih (Memory.wf_setByte h _ b)]
    · rw [Memory.byte_setByte h, if_neg]
      simpa using hj 0 (by simp)
    · intro k hk
      have := hj (k + 1) (by simpa using hk)
      rwa [show i + 1 + k = i + (k + 1) by omega]

/-- A write leaves every byte outside it alone. -/
theorem Memory.byte_writeBytes_other (xl : XLen) {m : Memory} (h : m.wf) (a : Word) (bs : List Byte) (j : Nat)
    (hj : ∀ k, k < bs.length → addrAt xl a k ≠ j) : (m.writeBytes xl a bs).byte j = m.byte j :=
  Memory.byte_writeFrom_other xl h a 0 bs j (by simpa using hj)

theorem addrAt_inj (xl : XLen) (a : Word) {i k : Nat} (hi : i < 2 ^ xl.bits) (hk : k < 2 ^ xl.bits)
    (h : addrAt xl a i = addrAt xl a k) : i = k := by
  unfold addrAt at h
  have := Nat.ModEq.add_left_cancel' a.toNat (h : a.toNat + i ≡ a.toNat + k [MOD 2 ^ xl.bits])
  rwa [Nat.ModEq, Nat.mod_eq_of_lt hi, Nat.mod_eq_of_lt hk] at this

theorem Memory.byte_writeFrom_at (xl : XLen) {m : Memory} (h : m.wf) (a : Word) (i : Nat) (bs : List Byte) (k : Nat)
    (hk : k < bs.length) (hlen : i + bs.length ≤ 2 ^ xl.bits) :
    (m.writeFrom xl a i bs).byte (addrAt xl a (i + k)) = bs[k] := by
  induction bs generalizing m i k with
  | nil => simp at hk
  | cons b bs ih =>
    simp only [List.length_cons] at hk hlen
    rw [Memory.writeFrom]
    cases k with
    | zero =>
      rw [Memory.byte_writeFrom_other xl (Memory.wf_setByte h _ b), Memory.byte_setByte h]
      · simp
      · intro k hk' he
        have := addrAt_inj xl a (by omega) (by omega) he
        omega
    | succ k =>
      have := ih (Memory.wf_setByte h (addrAt xl a i) b) (i + 1) k (by omega) (by omega)
      rw [show i + (k + 1) = i + 1 + k by omega, this]
      simp

/-- Reading a byte just written gives it. -/
theorem Memory.byte_writeBytes_at (xl : XLen) {m : Memory} (h : m.wf) (a : Word) (bs : List Byte) (k : Nat)
    (hk : k < bs.length) (hlen : bs.length ≤ 2 ^ xl.bits) :
    (m.writeBytes xl a bs).byte (addrAt xl a k) = bs[k] := by
  simpa [Memory.writeBytes] using Memory.byte_writeFrom_at xl h a 0 bs k hk (by simpa using hlen)

/-- Reading the bytes just written gives them. -/
theorem Memory.readBytes_writeBytes (xl : XLen) {m : Memory} (h : m.wf) (a : Word) (bs : List Byte)
    (hlen : bs.length ≤ 2 ^ xl.bits) : (m.writeBytes xl a bs).readBytes xl a bs.length = bs := by
  apply List.ext_getElem
  · simp [Memory.readBytes]
  · intro k hk _
    simp only [Memory.readBytes, List.length_map, List.length_range] at hk
    simp [Memory.readBytes, Memory.byte_writeBytes_at xl h a bs k hk hlen]

@[simp] theorem Memory.length_readBytes (xl : XLen) (m : Memory) (a : Word) (n : Nat) :
    (m.readBytes xl a n).length = n := by simp [Memory.readBytes]

/-! ### Byte order -/

@[simp] theorem length_leBytes (n : Nat) (v : Word) : (leBytes n v).length = n := by
  induction n generalizing v with
  | zero => rfl
  | succ n ih => simp [leBytes, ih]

/-- The k-th byte of a value, from the least significant. -/
theorem leBytes_getElem (n : Nat) (v : Word) (k : Nat) (hk : k < (leBytes n v).length) :
    (leBytes n v)[k] = (v >>> (8 * k)).setWidth 8 := by
  induction n generalizing v k with
  | zero => simp at hk
  | succ n ih =>
    cases k with
    | zero => simp [leBytes]
    | succ k =>
      simp only [leBytes, List.getElem_cons_succ]
      rw [ih]
      congr 1
      rw [← BitVec.shiftRight_add]
      congr 1
      omega

/-- The value of the low n bytes of a value is the value modulo 2^(8n). -/
theorem leValue_leBytes (n : Nat) (hn : n ≤ 8) (v : Word) :
    leValue (leBytes n v) = (v.setWidth (8 * n)).setWidth 64 := by
  induction n generalizing v with
  | zero => apply BitVec.eq_of_getLsbD_eq; simp [leBytes, leValue]
  | succ n ih =>
    rw [leBytes, leValue, ih (by omega)]
    apply BitVec.eq_of_getLsbD_eq
    intro i hi
    simp only [BitVec.getLsbD_or, BitVec.getLsbD_setWidth, BitVec.getLsbD_shiftLeft, BitVec.getLsbD_ushiftRight, hi,
      decide_true, Bool.true_and]
    by_cases h8 : i < 8
    · have : i < 8 * (n + 1) := by omega
      simp [h8, this]
    · have h1 : 8 + (i - 8) = i := by omega
      have h2 : i - 8 < 64 := by omega
      simp only [h8, decide_false, Bool.false_and, Bool.not_false, Bool.true_and, Bool.false_or, h1, h2, decide_true]
      congr 1
      simp only [decide_eq_decide]
      omega

/-- The bytes of the value of n bytes are those bytes. -/
theorem leBytes_leValue (bs : List Byte) (h : bs.length ≤ 8) : leBytes bs.length (leValue bs) = bs := by
  induction bs with
  | nil => rfl
  | cons b bs ih =>
    simp only [List.length_cons] at h
    simp only [List.length_cons, leBytes, leValue]
    congr 1
    · apply BitVec.eq_of_getLsbD_eq
      intro i hi
      simp [hi]
    · have hlt : (leValue bs).toNat < 2 ^ (8 * bs.length) := by
        clear ih h
        induction bs with
        | nil => simp [leValue]
        | cons b bs ih =>
          simp only [leValue, List.length_cons, BitVec.toNat_or, BitVec.toNat_setWidth, BitVec.toNat_shiftLeft]
          apply Nat.or_lt_two_pow
          · have := b.isLt
            calc _ ≤ b.toNat := Nat.mod_le _ _
              _ < 2 ^ 8 := this
              _ ≤ _ := Nat.pow_le_pow_right (by omega) (by omega)
          · calc _ ≤ (leValue bs).toNat <<< 8 := Nat.mod_le _ _
              _ < 2 ^ (8 * bs.length) * 2 ^ 8 := by rw [Nat.shiftLeft_eq]; omega
              _ = _ := by rw [← Nat.pow_add]; congr 1
      have hb : (b.setWidth 64 ||| leValue bs <<< 8) >>> 8 = leValue bs := by
        apply BitVec.eq_of_getLsbD_eq
        intro i hi
        simp only [BitVec.getLsbD_ushiftRight, BitVec.getLsbD_or, BitVec.getLsbD_setWidth, BitVec.getLsbD_shiftLeft]
        have h1 : b.getLsbD (8 + i) = false := BitVec.getLsbD_of_ge _ _ (by omega)
        have h2 : ¬ (8 + i < 8) := by omega
        have h3 : 8 + i - 8 = i := by omega
        simp only [h1, Bool.and_false, Bool.false_or, h2, decide_false, Bool.not_false, Bool.and_true, h3]
        by_cases h4 : 8 + i < 64
        · simp [h4]
        · have : (leValue bs).getLsbD i = false := by
            rw [BitVec.getLsbD, Nat.testBit_lt_two_pow]
            exact lt_of_lt_of_le hlt (Nat.pow_le_pow_right (by omega) (by omega))
          simp [h4, this]
      rw [hb]; exact ih (by omega)

end Sys2Proof.Machine
end

