-- ==== Sys2Proof/Laws/Csr.lean ====
section
/-! SUPPORT. The laws of the CSR file and of the general registers: read after write, writes elsewhere, canonical form. -/

namespace Sys2Proof.Machine

/-! ### CSRs -/

theorem csrName_addr (n : CsrName) : csrName n.addr = some n := by cases n <;> decide

theorem addr_of_csrName {a : CsrAddr} {n : CsrName} (h : csrName a = some n) : a = n.addr := by
  have := List.find?_some h
  simp at this
  exact this.symm

@[simp] theorem CsrFile.named_setNamed_self (f : CsrFile) (v : Word) (n : CsrName) : (f.setNamed v n).named n = v := by
  cases n <;> rfl

theorem CsrFile.named_setNamed_other (f : CsrFile) (v : Word) {n m : CsrName} (h : n ≠ m) :
    (f.setNamed v n).named m = f.named m := by cases n <;> first | (cases m <;> first | rfl | exact absurd rfl h)

@[simp] theorem CsrFile.other_setNamed (f : CsrFile) (v : Word) (n : CsrName) : (f.setNamed v n).other = f.other := by
  cases n <;> rfl

/-- Reading after storing: the value stored there, every other address as before. -/
theorem CsrFile.get_set {f : CsrFile} (h : sparseWf f.other) (a : CsrAddr) (v : Word) (b : CsrAddr) :
    (f.set a v).get b = if a = b then v else f.get b := by
  unfold CsrFile.set CsrFile.get
  cases ha : csrName a with
  | some n =>
    have ha' := addr_of_csrName ha
    cases hb : csrName b with
    | some m =>
      have hb' := addr_of_csrName hb
      by_cases hnm : n = m
      · subst hnm; simp [ha', hb']
      · rw [if_neg]
        · exact f.named_setNamed_other v hnm
        · rintro rfl; rw [ha] at hb; exact hnm (Option.some.inj hb)
    | none =>
      rw [if_neg]
      · simp
      · rintro rfl; rw [ha] at hb; cases hb
  | none =>
    cases hb : csrName b with
    | some m =>
      rw [if_neg]
      · cases m <;> rfl
      · rintro rfl; rw [ha] at hb; cases hb
    | none =>
      show sparseGet (sparseSet f.other a.toNat v) b.toNat = _
      rw [sparseGet_set h]
      by_cases hab : a = b
      · simp [hab]
      · rw [if_neg hab, if_neg fun he => hab (BitVec.eq_of_toNat_eq he)]

theorem CsrFile.wf_set {f : CsrFile} (h : sparseWf f.other) (a : CsrAddr) (v : Word) : sparseWf (f.set a v).other := by
  unfold CsrFile.set
  split
  · simpa using h
  · exact sparseWf_set _ _ _ h

@[simp] theorem State.readCsr_of_not_counter {s : State} {a : CsrAddr} (h : isCounter s.cfg.xlen a = false) :
    s.readCsr a = (s.csr.get a, s) := by simp [State.readCsr, h]

@[simp] theorem State.readCsr_of_counter {s : State} {a : CsrAddr} (h : isCounter s.cfg.xlen a = true) :
    s.readCsr a = (s.cfg.xlen.wrap (Config.draw s.draws), { s with draws := s.draws + 1 }) := by simp [State.readCsr, h]

/-! ### General registers (R31) -/

@[simp] theorem State.x_zero (s : State) : s.x 0 = 0 := by simp [State.x]

/-- A write is read back, modulo 2^XLEN; x0 stays 0; every other register is unchanged. -/
theorem State.x_setX (s : State) (rd : Reg) (v : Word) (r : Reg) :
    (s.setX rd v).x r = if r = rd ∧ r ≠ 0 then s.cfg.xlen.wrap v else s.x r := by
  unfold State.setX State.x
  by_cases hr : r = 0
  · simp [hr]
  · by_cases hd : rd = 0
    · rw [if_pos hd, if_neg hr, if_neg]
      rintro ⟨rfl, -⟩; exact hr hd
    · rw [if_neg hd, if_neg hr, if_neg hr]
      by_cases he : r = rd
      · subst he; simp [show ¬ r = 0#5 from hr]
      · rw [if_neg fun h => he h.1, Vector.getElem_set_ne]
        intro h; exact he (BitVec.eq_of_toNat_eq h.symm)

/-! ### XLEN bits -/

theorem xlen_bits_le (xl : XLen) : xl.bits ≤ 64 := by cases xl <;> decide

theorem toNat_wrap (xl : XLen) (v : Word) : (xl.wrap v).toNat = v.toNat % 2 ^ xl.bits := by
  cases xl
  · simp [XLen.wrap, XLen.bits]
    omega
  · simp [XLen.wrap, XLen.bits]
    omega

theorem fits_wrap (xl : XLen) (v : Word) : xl.Fits (xl.wrap v) := by
  rw [XLen.Fits, toNat_wrap]
  exact Nat.mod_lt _ (Nat.two_pow_pos _)

/-- A value that fits is its own wrap. -/
theorem wrap_of_fits {xl : XLen} {v : Word} (h : xl.Fits v) : xl.wrap v = v := by
  apply BitVec.eq_of_toNat_eq
  rw [toNat_wrap, Nat.mod_eq_of_lt h]

theorem fits_setWidth {xl : XLen} (v : BitVec xl.bits) : xl.Fits (v.setWidth 64) := by
  have := v.isLt
  rw [XLen.Fits, BitVec.toNat_setWidth]
  exact lt_of_le_of_lt (Nat.mod_le _ _) this

theorem fits_atXLen (xl : XLen) (f : (n : Nat) → BitVec n → BitVec n → BitVec n) (a b : Word) :
    xl.Fits (atXLen xl f a b) := fits_setWidth _

theorem fits_addOffset (xl : XLen) (a b : Word) : xl.Fits (addOffset xl a b) := fits_atXLen _ _ _ _

theorem fits_sext (xl : XLen) {n : Nat} (v : BitVec n) : xl.Fits (xl.sext v) := fits_wrap xl _

theorem fits_zext (xl : XLen) {n : Nat} (v : BitVec n) : xl.Fits (xl.zext v) := fits_wrap xl _

end Sys2Proof.Machine
end

