-- ==== Sys2Proof/Laws/Ops.lean ====
section
/-! SUPPORT. One lemma per shared operation: everything it can do, in the terms of Safety.lean. -/

namespace Sys2Proof.Machine

/-! ### Values -/

theorem fits_ofIntX (xl : XLen) (z : Int) : xl.Fits (ofIntX xl z) := fits_setWidth _

theorem setWidth_bits_ofIntX (xl : XLen) (z : Int) : (ofIntX xl z).setWidth xl.bits = BitVec.ofInt xl.bits z := by
  apply BitVec.eq_of_toNat_eq
  have h := xlen_bits_le xl
  have h1 : 2 ^ xl.bits ≤ 2 ^ 64 := Nat.pow_le_pow_right (by decide) h
  have h2 : (BitVec.ofInt xl.bits z).toNat < 2 ^ xl.bits := (BitVec.ofInt xl.bits z).isLt
  simp only [ofIntX, BitVec.toNat_setWidth]
  rw [Nat.mod_eq_of_lt (Nat.lt_of_lt_of_le h2 h1), Nat.mod_eq_of_lt h2]

/-- A value whose XLEN-bit part is that of an integer is that integer's. -/
theorem setWidth_eq_ofIntX {xl : XLen} {v : BitVec xl.bits} {z : Int} (h : v = BitVec.ofInt xl.bits z) :
    v.setWidth 64 = ofIntX xl z := by rw [h]; rfl

theorem atXLen_add (xl : XLen) (a b : Word) : atXLen xl opAdd a b = ofIntX xl (signed xl a + signed xl b) := by
  refine setWidth_eq_ofIntX ?_
  apply BitVec.eq_of_toInt_eq
  simp [opAdd, signed, BitVec.toInt_add, BitVec.toInt_ofInt]

theorem atXLen_sub (xl : XLen) (a b : Word) : atXLen xl opSub a b = ofIntX xl (signed xl a - signed xl b) := by
  refine setWidth_eq_ofIntX ?_
  apply BitVec.eq_of_toInt_eq
  simp [opSub, signed, BitVec.toInt_sub, BitVec.toInt_ofInt]

/-! ### Register results -/

theorem robAt_setRobResult {s : State} {i : Nat} (h : i < s.six.rob.length) (v : Word) (j : Nat) :
    (setRobResult i v s).robAt j = if j = i then { s.robAt j with result := v } else s.robAt j := by
  by_cases hj : j = i
  · subst hj; simp [setRobResult, State.robAt, h]
  · simp [setRobResult, State.robAt, hj, Ne.symm hj]

/-- `writeDest` writes rd, or the executing entry's result, and nothing else. -/
theorem onlyResult_writeDest {s : State} (hx : AtEx s) {v : Word} (hv : s.cfg.xlen.Fits v) (rd : Reg) :
    OnlyResult rd v s (s.writeDest rd v) := by
  cases hp : s.cfg.pipe with
  | twoStage =>
    have h : s.writeDest rd v = s.setX rd v := by simp [State.writeDest, hp]
    rw [h]
    refine ⟨⟨fun r => ?_, ⟨by simp, fun j => ?_⟩, ?_, ?_, ?_⟩, ⟨?_, ?_, ?_, ?_⟩, ?_⟩ <;>
      try simp [hp, MemAfter, StoreBufferAfter, State.robAt, State.x_setX, wrap_of_fits hv]
    constructor <;> simp
  | sixStage =>
    have h : s.writeDest rd v = setRobResult s.six.reg.l4.robIndex v s := by
      simp [State.writeDest, hp, wrap_of_fits hv]
    rw [h]
    refine ⟨⟨fun r => ?_, ⟨?_, fun j => ?_⟩, ?_, ?_, ?_⟩, ⟨rfl, rfl, rfl, rfl⟩, rfl⟩
    · simp [hp, setRobResult, State.x]
    · simp [setRobResult]
    · simp [hp, robAt_setRobResult (hx hp)]
    · simp [MemAfter, hp, setRobResult]
    · simp [StoreBufferAfter, hp, setRobResult]
    · constructor <;> rfl

/-- An instruction that computes one result (R180): `regReg`, `regImm`, `regRegW` and `regImmW` are `writeResult`. -/
theorem writeResult_next {s : State} (hx : AtEx s) {v : Word} (hv : s.cfg.xlen.Fits v) (rd : Reg) :
    ∃ t, writeResult rd v s = .next t ∧ OnlyResult rd v s t := ⟨_, rfl, onlyResult_writeDest hx hv rd⟩

theorem fits_atWord (xl : XLen) (f : (n : Nat) → BitVec n → BitVec n → BitVec n) (a b : Word) :
    xl.Fits (atWord xl f a b) := fits_sext xl _

/-! ### Control transfers -/

theorem nothing_refl (s : State) : Nothing s s := by
  refine ⟨⟨fun r => ?_, ⟨rfl, fun j => ?_⟩, ?_, ?_, ?_⟩, ⟨rfl, rfl, rfl, rfl⟩, rfl⟩
  · cases s.cfg.pipe <;> rfl
  · cases s.cfg.pipe <;> rfl
  · cases h : s.cfg.pipe <;> simp [MemAfter, h]
  · cases h : s.cfg.pipe <;> simp [StoreBufferAfter, h]
  · constructor <;> rfl

/-- `jumpTo` reports the target and keeps everything else. -/
theorem jump_jumpTo {res : Option (Reg × Word)} {s t : State} (he : Effect res none s t) (hs : SameSpecial s t)
    (hx : t.ex = s.ex) (target : Word) : Jump res target s (t.jumpTo target) := by
  refine ⟨⟨he.regs, ⟨he.rob.1, he.rob.2⟩, ?_, he.sb, ?_⟩, ⟨hs.csr, hs.reservation, hs.trace, hs.draws⟩, ?_⟩
  · exact he.mem
  · exact ⟨he.rest.cfg, he.rest.two, he.rest.six, he.rest.irq, he.rest.stats, he.rest.dmi, he.rest.schedule,
      he.rest.timer, he.rest.plic, he.rest.dma, he.rest.uart, he.rest.hook, he.rest.outcome⟩
  · simp [State.jumpTo, hx]

/-- A conditional branch (R240). -/
theorem branchIf_next (cond : Bool) (off : Word) (s : State) :
    ∃ t, branchIf cond off s = .next t ∧
      if cond then Jump none (addOffset s.cfg.xlen s.instrPc off) s t else Nothing s t := by
  cases cond
  · exact ⟨s, rfl, nothing_refl s⟩
  · exact ⟨_, rfl, jump_jumpTo (nothing_refl s).effect (nothing_refl s).special rfl _⟩

/-- A jump with link (R250, R251). -/
theorem jumpLink_next {s : State} (hx : AtEx s) (rd : Reg) (len target : Word) :
    ∃ t, jumpLink rd len target s = .next t ∧ Jump (some (rd, s.linkValue len)) target s t := by
  have h := onlyResult_writeDest hx (v := s.linkValue len) (fits_addOffset _ _ _) rd
  exact ⟨_, rfl, jump_jumpTo h.effect h.special h.ex target⟩

/-! ### Data accesses of main memory -/

theorem transport_main {s : State} {tx : Tx} (hm : targetAt tx.addr = none)
    (ht : tx.cmd = .read ∨ tx.addr ≠ s.cfg.tohostAddr) : transport tx s = mainMemoryAccess tx s := by
  have h : ¬(tx.addr = s.cfg.tohostAddr ∧ tx.cmd = .write) := by
    rintro ⟨h1, h2⟩
    rcases ht with h | h
    · rw [h] at h2; cases h2
    · exact h h1
  simp [transport, h, hm]

theorem leValue_map (f : Nat → Byte) (n : Nat) (hn : n ≤ 8) :
    (leValue ((List.range n).map f)).toNat = leNumber f n := by
  have key : ∀ k, k ≤ 8 → ∀ g : Nat → Byte, (leValue ((List.range k).map g)).toNat = leNumber g k ∧
      leNumber g k < 256 ^ k := by
    intro k
    induction k with
    | zero => intro _ g; simp [leValue, leNumber]
    | succ k ih =>
      intro hk g
      have hb : ∀ (f : Nat → Byte) (k : Nat), leNumber f (k + 1) = (f 0).toNat + 256 * leNumber (fun i => f (i + 1)) k := by
        intro f k
        induction k with
        | zero => simp [leNumber]
        | succ k ih => rw [leNumber, ih, leNumber]; simp only [Nat.pow_succ]; ring
      obtain ⟨ih1, ih2⟩ := ih (by omega) (fun i => g (i + 1))
      rw [List.range_succ_eq_map, List.map_cons, List.map_map, hb]
      have h1 : ((List.range k).map (g ∘ Nat.succ)) = (List.range k).map fun i => g (i + 1) := rfl
      have hle : 256 ^ k * 256 ≤ 2 ^ 64 := by
        have : (256 : Nat) ^ (k + 1) ≤ 256 ^ 8 := Nat.pow_le_pow_right (by decide) hk
        rw [Nat.pow_succ] at this; exact this
      have h0 := (g 0).isLt
      rw [leValue, h1, BitVec.toNat_or, BitVec.toNat_shiftLeft, BitVec.toNat_setWidth, ih1]
      rw [Nat.mod_eq_of_lt (by omega : (g 0).toNat < 2 ^ 64), Nat.shiftLeft_eq, Nat.mod_eq_of_lt (by omega)]
      constructor
      · rw [Nat.or_comm, Nat.mul_comm _ (2 ^ 8), ← Nat.two_pow_add_eq_or_of_lt (by simpa using h0)]; omega
      · rw [Nat.pow_succ]; omega
  exact (key n hn f).1

/-- A read of main memory answers the little-endian number of its bytes and changes nothing (R15, R101, R103). -/
theorem memRead_main {s : State} {a : Word} {n : Nat} (hn : n ∈ [1, 2, 4, 8]) (hm : MainMemory s.cfg a n) :
    memRead a n s = .ok (BitVec.ofNat 64 (s.memNumber a n)) s := by
  have hb : burstOk n = true ∧ n ≠ 0 ∧ n ≤ 8 := by
    simp only [List.mem_cons, List.not_mem_nil, or_false] at hn
    rcases hn with h | h | h | h <;> subst h <;> decide
  have h : mainMemoryAccess ⟨.data, .read, a, n, []⟩ s = .ok (s.mem.readBytes s.cfg.xlen a n) s := by
    simp [mainMemoryAccess, hb, hm.2]
  rw [memRead, dataAccess, transport_main hm.1 (.inl rfl), h]
  simp only
  congr 1
  apply BitVec.eq_of_toNat_eq
  rw [Memory.readBytes, leValue_map _ _ hb.2.2, BitVec.toNat_ofNat, State.memNumber, Nat.mod_eq_of_lt]
  rw [← leValue_map _ _ hb.2.2]
  exact (leValue _).isLt

/-- A write of main memory writes the low bytes of the value and broadcasts a DMI invalidation (R88, R93). -/
theorem memWrite_main {s : State} {a : Word} {n : Nat} (v : Word) (hn : n ∈ [1, 2, 4, 8]) (hm : MainMemory s.cfg a n)
    (ht : a ≠ s.cfg.tohostAddr) :
    memWrite a n v s = .ok 0 { s with mem := s.mem.writeBytes s.cfg.xlen a (leBytes n v), dmiInvalidate := true } := by
  have hb : burstOk n = true ∧ n ≠ 0 := by
    simp only [List.mem_cons, List.not_mem_nil, or_false] at hn
    rcases hn with h | h | h | h <;> subst h <;> decide
  have h : mainMemoryAccess ⟨.data, .write, a, n, leBytes n v⟩ s =
      .ok [] { s with mem := s.mem.writeBytes s.cfg.xlen a (leBytes n v), dmiInvalidate := true } := by
    simp [mainMemoryAccess, hb, hm.2]
  rw [memWrite, dataAccess, transport_main hm.1 (.inr ht), h]
  rfl

/-- What the low bytes of a value are (R103). -/
theorem leBytes_byteOf (n : Nat) (v : Word) (i : Nat) (hi : i < (leBytes n v).length) :
    (leBytes n v)[i] = byteOf v.toNat i := by
  rw [leBytes_getElem, byteOf]
  apply BitVec.eq_of_toNat_eq
  simp [Nat.shiftRight_eq_div_pow, Nat.pow_mul, BitVec.toNat_setWidth]

/-- The Write of a store to main memory: the bytes in the 2-stage pipeline, a store-buffer entry in the 6-stage pipeline, and
nothing else (R256, R512). -/
theorem storeData_main {s : State} {a : Word} {n : Nat} (v : Word) (hn : n ∈ [1, 2, 4, 8]) (hm : MainMemory s.cfg a n)
    (ht : a ≠ s.cfg.tohostAddr) (hw : s.mem.wf = true) :
    ∃ t, storeData a n v s = .ok 0 t ∧ OnlyStore ⟨a, n, lowNumber n v⟩ s t := by
  have h8 : n ≤ 8 := by
    simp only [List.mem_cons, List.not_mem_nil, or_false] at hn
    rcases hn with h | h | h | h <;> subst h <;> decide
  cases hp : s.cfg.pipe with
  | twoStage =>
    have hl : (leBytes n v).length ≤ 2 ^ s.cfg.xlen.bits := by
      rw [length_leBytes]; cases s.cfg.xlen <;> simp [XLen.bits] <;> omega
    have h : storeData a n v s = memWrite a n v s := by simp only [storeData, hp]
    rw [h, memWrite_main v hn hm ht]
    refine ⟨_, rfl, ?_, ⟨rfl, rfl, rfl, rfl⟩, rfl⟩
    refine ⟨fun r => ?_, ⟨rfl, fun j => ?_⟩, ?_, ?_, ?_⟩
    · simp [hp, State.x]
    · simp [hp, State.robAt]
    · simp only [MemAfter, hp]
      refine ⟨fun i hi => ?_, fun b hb => ?_, trivial⟩
      · rw [Memory.byte_writeBytes_at _ hw _ _ _ (by simpa using hi) hl, leBytes_byteOf]
        simp only [byteOf, lowNumber]
        apply BitVec.eq_of_toNat_eq
        simp only [BitVec.toNat_ofNat]
        rw [show (2 : Nat) ^ (8 * n) = 256 ^ i * (2 ^ 8 * 256 ^ (n - i - 1)) from ?_]
        · rw [Nat.mod_mul_right_div_self, Nat.mod_mul_right_mod]
        · have h : n = i + (1 + (n - i - 1)) := by omega
          conv_lhs => rw [h, Nat.pow_mul, Nat.pow_add, Nat.pow_add]
          norm_num
      · exact Memory.byte_writeBytes_other _ hw _ _ _ (fun i hi => (hb i (by simpa using hi)).symm)
    · simp [StoreBufferAfter, hp]
    · constructor <;> rfl
  | sixStage =>
    refine ⟨enqueueStore a n v s, by simp only [storeData, hp], ?_, ⟨rfl, rfl, rfl, rfl⟩, rfl⟩
    refine ⟨fun r => ?_, ⟨rfl, fun j => ?_⟩, ?_, ?_, ?_⟩
    · simp [hp, State.x, enqueueStore]
    · simp [hp, State.robAt, enqueueStore]
    · simp [MemAfter, hp, enqueueStore]
    · simp only [StoreBufferAfter, hp, enqueueStore, lowNumber]
      rw [leValue_leBytes n h8]
      congr 3
      apply BitVec.eq_of_toNat_eq
      simp
    · constructor <;> rfl

/-- A load from main memory (R255). -/
theorem loadInto_main {s : State} {a : Word} {n : Nat} (hn : n ∈ [1, 2, 4, 8]) (hm : MainMemory s.cfg a n) (hx : AtEx s)
    (rd : Reg) (ext : Word → Word) (he : ∀ v, s.cfg.xlen.Fits (ext v)) :
    ∃ t, loadInto rd a n ext s = .next t ∧ OnlyResult rd (ext (BitVec.ofNat 64 (s.memNumber a n))) s t := by
  rw [loadInto, memRead_main hn hm]
  exact ⟨_, rfl, onlyResult_writeDest hx (he _) rd⟩

/-- A store to main memory (R256). -/
theorem storeTo_main {s : State} {a : Word} {n : Nat} (v : Word) (hn : n ∈ [1, 2, 4, 8]) (hm : MainMemory s.cfg a n)
    (ht : a ≠ s.cfg.tohostAddr) (hw : s.mem.wf = true) :
    ∃ t, storeTo a n v s = .next t ∧ OnlyStore ⟨a, n, lowNumber n v⟩ s t := by
  obtain ⟨t, h, ho⟩ := storeData_main v hn hm ht hw
  exact ⟨t, by simp [storeTo, h, Access.andThen], ho⟩

/-! ### Atomics -/

/-- An LR from main memory (R305, R316). -/
theorem loadReserved_main {s : State} {a : Word} {n : Nat} (hn : n ∈ [1, 2, 4, 8]) (hm : MainMemory s.cfg a n)
    (hx : AtEx s) (rd : Reg) : ∃ t, loadReserved rd a n s = .next (t.reserve (some ⟨a, n⟩)) ∧
      OnlyResult rd (signExt s.cfg.xlen (8 * n) (BitVec.ofNat 64 (s.memNumber a n))) s t := by
  rw [loadReserved, memRead_main hn hm]
  exact ⟨_, rfl, onlyResult_writeDest hx (fits_sext _ _) rd⟩

/-- A successful SC to main memory (R306, R317). -/
theorem storeConditional_held {s : State} {a : Word} {n : Nat} (v : Word) (hn : n ∈ [1, 2, 4, 8])
    (hm : MainMemory s.cfg a n) (ht : a ≠ s.cfg.tohostAddr) (hw : s.mem.wf = true)
    (hr : s.reservation = some ⟨a, n⟩) (rd : Reg) :
    ∃ t, OnlyStore ⟨a, n, lowNumber n v⟩ s t ∧
      storeConditional rd a n v s = .next ((t.writeDest rd 0).reserve none) := by
  obtain ⟨t, h, ho⟩ := storeData_main v hn hm ht hw
  exact ⟨t, ho, by simp [storeConditional, hr, h, Access.andThen]⟩

/-- A failed SC (R306, R317). -/
theorem storeConditional_lost {s : State} {a : Word} {n : Nat} (v : Word) (hr : s.reservation ≠ some ⟨a, n⟩)
    (rd : Reg) : storeConditional rd a n v s = .next ((s.cancelStore.writeDest rd 1).reserve none) := by
  simp [storeConditional, hr]

/-- An AMO on main memory (R304): the store of the new value, then the old value in rd. -/
theorem amo_main {s : State} {a : Word} {n : Nat} (op : (n : Nat) → BitVec n → BitVec n → BitVec n) (src : Word)
    (hn : n ∈ [1, 2, 4, 8]) (hm : MainMemory s.cfg a n) (ht : a ≠ s.cfg.tohostAddr) (hw : s.mem.wf = true) (rd : Reg) :
    let old := BitVec.ofNat 64 (s.memNumber a n)
    let new := (op (8 * n) (old.setWidth (8 * n)) (src.setWidth (8 * n))).setWidth 64
    ∃ t, OnlyStore ⟨a, n, lowNumber n new⟩ s t ∧
      amo rd a n op src s = .next (t.writeDest rd (signExt s.cfg.xlen (8 * n) old)) := by
  intro old new
  obtain ⟨t, h, ho⟩ := storeData_main new hn hm ht hw
  refine ⟨t, ho, ?_⟩
  rw [amo, memRead_main hn hm]
  simp only [Access.andThen]
  rw [h]

/-! ### CSR instructions -/

theorem writeDest_wrap (rd : Reg) (v : Word) (s : State) : s.writeDest rd (s.cfg.xlen.wrap v) = s.writeDest rd v := by
  have h : s.cfg.xlen.wrap (s.cfg.xlen.wrap v) = s.cfg.xlen.wrap v := wrap_of_fits (fits_wrap _ _)
  simp only [State.writeDest, State.setX, h]

/-- `Effect` looks only at these fields of the first state. -/
theorem Effect.of_eq {res : Option (Reg × Word)} {st : Option StoreOf} {s u t : State} (h : Effect res st u t)
    (hu : u = { s with csr := u.csr, draws := u.draws }) : Effect res st s t := by
  rw [hu] at h
  exact ⟨h.regs, h.rob, h.mem, h.sb,
    ⟨h.rest.cfg, h.rest.two, h.rest.six, h.rest.irq, h.rest.stats, h.rest.dmi, h.rest.schedule, h.rest.timer,
      h.rest.plic, h.rest.dma, h.rest.uart, h.rest.hook, h.rest.outcome⟩⟩

/-- The machine after the read and the write of a CSR instruction, before rd is written. -/
def afterCsr (a : CsrAddr) (new : Word → Option Word) (s : State) : State :=
  match new (s.readCsr a).1 with
  | some v => (s.readCsr a).2.writeCsr a v
  | none => (s.readCsr a).2

theorem readCsr_fst (a : CsrAddr) (s : State) : (s.readCsr a).1 = s.csrOld a := by
  cases h : isCounter s.cfg.xlen a <;> simp [h, State.csrOld]

theorem readCsr_state (a : CsrAddr) (s : State) :
    (s.readCsr a).2 = { s with draws := if isCounter s.cfg.xlen a then s.draws + 1 else s.draws } := by
  cases h : isCounter s.cfg.xlen a <;> simp [h]

theorem afterCsr_eq (a : CsrAddr) (new : Word → Option Word) (s : State) :
    afterCsr a new s = { s with
      csr := match new (s.readCsr a).1 with
        | some v => s.csr.set a (s.cfg.xlen.wrap v)
        | none => s.csr
      draws := if isCounter s.cfg.xlen a then s.draws + 1 else s.draws } := by
  rw [afterCsr, readCsr_state]
  cases new (s.readCsr a).1 <;> rfl

/-- A CSR instruction (R391). -/
theorem csrAccess_next {s : State} (hx : AtEx s) (hw : sparseWf s.csr.other = true) (rd : Reg) (a : CsrAddr)
    (new : Word → Option Word) : ∃ t, csrAccess rd a new s = .next t ∧ CsrEffect rd a new s t := by
  have hc : (afterCsr a new s).cfg = s.cfg := by rw [afterCsr_eq]
  have hx' : AtEx (afterCsr a new s) := by rw [afterCsr_eq]; exact hx
  have h := onlyResult_writeDest hx' (fits_wrap _ (s.readCsr a).1) rd
  rw [writeDest_wrap, hc] at h
  refine ⟨_, rfl, by rw [← readCsr_fst]; exact h.effect.of_eq (by rw [afterCsr_eq]), fun b => ?_, ?_, ?_, ?_, ?_⟩
  · have hcsr := h.special.csr
    rw [show (afterCsr a new s).csr = _ from congrArg State.csr (afterCsr_eq a new s)] at hcsr
    refine (congrArg (CsrFile.get · b) hcsr).trans ?_
    rw [← readCsr_fst]
    cases new (s.readCsr a).1 with
    | none => rfl
    | some v => exact CsrFile.get_set hw a _ b
  · exact h.special.draws.trans (by rw [afterCsr_eq])
  · exact h.special.reservation.trans (by rw [afterCsr_eq])
  · exact h.special.trace.trans (by rw [afterCsr_eq])
  · exact h.ex.trans (by rw [afterCsr_eq])

/-! ### Results of steps -/

/-- A step that goes on answers a next state only through both parts. -/
theorem andThen_next {r : Result} {k : State → Result} {t : State} (h : Result.andThen r k = .next t) :
    ∃ u, r = .next u ∧ ((u.outcome.isSome = true ∧ t = u) ∨ (u.outcome = none ∧ k u = .next t)) := by
  unfold Result.andThen at h
  split at h
  · rename_i u
    refine ⟨u, rfl, ?_⟩
    split at h
    · rename_i ho; exact .inl ⟨ho, by simpa using h.symm⟩
    · rename_i ho; exact .inr ⟨by simpa using ho, h⟩
  · cases h
  · cases h

theorem access_andThen_next {α : Type} {m : Access α} {k : α → State → Result} {t : State} (h : m.andThen k = .next t) :
    (∃ v u, m = .ok v u ∧ k v u = .next t) ∨ m = .stopped (.next t) := by
  cases m with
  | ok v u => exact .inl ⟨v, u, rfl, h⟩
  | stopped r => exact .inr (by rw [← h]; rfl)

end Sys2Proof.Machine
end

