-- ==== Sys2Proof/Laws/Access.lean ====
section
/-! SUPPORT. What a bus access can change, and the accesses of the devices. -/

namespace Sys2Proof.Machine

/-! ### What an access can change -/

/-- The fields an access may change: main memory, the devices, the streams and the count of draws. -/
def afterAccess (s t : State) : Prop :=
  t = { s with
    mem := t.mem, dmiInvalidate := t.dmiInvalidate, timer := t.timer, plic := t.plic, dma := t.dma, trace := t.trace
    uart := t.uart, hook := t.hook, draws := t.draws, outcome := t.outcome }

theorem afterAccess_refl (s : State) : afterAccess s s := rfl

theorem deviceRead_ok {tg : Target} {off len : Nat} {s t : State} {v : Word} (h : deviceRead tg off len s = .ok v t) :
    afterAccess s t ∧ t.outcome = s.outcome := by
  cases tg <;> simp only [deviceRead, timerRead, plicRead, dmaRead, hookRead, legacyTermination] at h <;>
    (repeat' split at h) <;> simp only [DevReply.ok.injEq, reduceCtorEq] at h <;> obtain ⟨-, rfl⟩ := h <;>
    exact ⟨rfl, rfl⟩

theorem deviceWrite_ok {tg : Target} {off len : Nat} {v w : Word} {s t : State} (h : deviceWrite tg off len v s = .ok w t) :
    afterAccess s t ∧ t.outcome = s.outcome := by
  cases tg <;> simp only [deviceWrite, timerWrite, plicWrite, uartWrite, dmaWrite, traceWrite, hookWrite,
      legacyTermination] at h <;>
    (repeat' split at h) <;> simp only [DevReply.ok.injEq, reduceCtorEq] at h <;> obtain ⟨-, rfl⟩ := h <;>
    exact ⟨rfl, rfl⟩

/-- An access that is answered OK keeps the core, the parameters and the outcome. -/
theorem transport_ok {tx : Tx} {s t : State} {bs : List Byte} (h : transport tx s = .ok bs t) :
    afterAccess s t ∧ t.outcome = s.outcome := by
  unfold transport at h
  split at h
  · unfold tohostWrite at h
    split at h
    · cases h; exact ⟨rfl, rfl⟩
    · cases h
  · split at h
    · split at h
      · unfold unboundAccess at h
        split at h <;> cases h <;> exact ⟨rfl, rfl⟩
      · simp only [deviceAccess] at h
        split at h
        · rename_i hd
          cases h
          split at hd
          · exact deviceRead_ok hd
          · exact deviceWrite_ok hd
        · cases h
        · cases h
    · unfold mainMemoryAccess at h
      (repeat' split at h) <;> cases h <;> exact ⟨rfl, rfl⟩

theorem deviceRead_eos {tg : Target} {off len : Nat} {s t : State} (h : deviceRead tg off len s = .eos t) :
    t = s.withOutcome (.stopped 0) := by
  cases tg <;> simp only [deviceRead, timerRead, plicRead, dmaRead, hookRead, legacyTermination] at h <;>
    (repeat' split at h) <;> simp only [DevReply.eos.injEq, reduceCtorEq] at h
  exact h.symm

theorem deviceWrite_eos {tg : Target} {off len : Nat} {v : Word} {s t : State}
    (h : deviceWrite tg off len v s = .eos t) : t = s.withOutcome (.stopped 0) := by
  cases tg <;> simp only [deviceWrite, timerWrite, plicWrite, uartWrite, dmaWrite, traceWrite, hookWrite,
      legacyTermination] at h <;>
    (repeat' split at h) <;> simp only [DevReply.eos.injEq, reduceCtorEq] at h
  exact h.symm

/-- An access that ends the run sets the outcome and nothing else (R83, R463). -/
theorem transport_eos {tx : Tx} {s t : State} (h : transport tx s = .eos t) : ∃ c, t = s.withOutcome (.stopped c) := by
  unfold transport at h
  split at h
  · unfold tohostWrite at h
    split at h
    · cases h
    · cases h; exact ⟨_, rfl⟩
  · split at h
    · split at h
      · unfold unboundAccess at h
        split at h <;> cases h
      · simp only [deviceAccess] at h
        split at h
        · cases h
        · rename_i hd
          cases h
          split at hd
          · exact ⟨_, deviceRead_eos hd⟩
          · exact ⟨_, deviceWrite_eos hd⟩
        · cases h
    · unfold mainMemoryAccess at h
      (repeat' split at h) <;> cases h

/-! ### Fetches and DMA ranges -/

/-- The little-endian word of four bytes of main memory (R106). -/
theorem setWidth_readBytes (xl : XLen) (m : Memory) (a : Word) :
    (leValue (m.readBytes xl a 4)).setWidth 32 = BitVec.ofNat 32 (leNumber (fun i => m.byte (addrAt xl a i)) 4) := by
  apply BitVec.eq_of_toNat_eq
  rw [BitVec.toNat_setWidth, Memory.readBytes, leValue_map _ 4 (by decide), BitVec.toNat_ofNat]

/-- The word IF passes on is the fetched one, or by the parameter the one of the memory before (entry 23). -/
theorem wordSeen_eq (before : Memory) (w : BitVec 32) (s : State) :
    wordSeen before w s = if s.cfg.oldWordAfterStore then
      BitVec.ofNat 32 (leNumber (fun i => before.byte (addrAt s.cfg.xlen s.two.pc i)) 4) else w := by
  rw [wordSeen, setWidth_readBytes]

/-- A fetch of four bytes of main memory that starts in no device answers their little-endian number, whichever path it takes,
and changes at most the descriptor held (R94, R106). -/
theorem fetch_main {s : State} {pc : Word} (hd : isDeviceAddr s.cfg pc = false) (hm : inMainMemory s.cfg pc 4 = true) :
    ∃ d, fetch pc s = .ok (BitVec.ofNat 32 (s.memNumber pc 4)) { s with dmi := d } := by
  have hv : (leValue (s.mem.readBytes s.cfg.xlen pc 4)).setWidth 32 = BitVec.ofNat 32 (s.memNumber pc 4) :=
    setWidth_readBytes _ _ _
  have hn : targetAt pc = none := by
    have h := hd
    simp only [isDeviceAddr, Bool.or_eq_false_iff] at h
    exact Option.isSome_eq_false_iff.mp h.1 |> Option.isNone_iff_eq_none.mp
  unfold fetch
  rw [if_neg (by simp [hd])]
  split
  · exact ⟨s.dmi, by rw [hv]⟩
  · rw [transport_main hn (.inl rfl)]
    simp only [mainMemoryAccess, hm, burstOk, State.requestDmi]
    by_cases he : s.cfg.dmiEnabled = true
    · exact ⟨some (dmiGrant s.cfg), by simp [he, hv]⟩
    · exact ⟨s.dmi, by simp [he, hv]⟩

/-- A range that is not empty and meets no device starts in none, and not at `TOHOST_ADDR` (R134). -/
theorem start_of_not_meetsDevice {cfg : Config} {a : Word} {n : Nat} (hn : n ≠ 0) (h : meetsDevice cfg a n = false) :
    targetAt a = none ∧ a ≠ cfg.tohostAddr := by
  simp only [meetsDevice, Bool.or_eq_false_iff, List.any_eq_false, rangesMeet, Bool.and_eq_true,
    decide_eq_true_eq, Bool.or_eq_true, Bool.or_eq_false_iff, Bool.and_eq_false_iff, decide_eq_false_iff_not] at h
  constructor
  · by_contra hc
    obtain ⟨tg, htg⟩ := Option.ne_none_iff_exists'.mp hc
    have hin := List.find?_some htg
    have hmem := List.mem_of_find?_eq_some htg
    have hm := h.1 tg hmem
    simp only [targetContains, Bool.and_eq_true, decide_eq_true_eq] at hin
    omega
  · rintro rfl
    have := h.2.1
    omega

/-! ### Accesses of a bound device -/

theorem ne_tohost {cfg : Config} {a : Word} {tg : Target} (ht : targetAt cfg.tohostAddr = none) (ha : targetAt a = some tg) :
    a ≠ cfg.tohostAddr := by
  intro h
  rw [h, ht] at ha
  cases ha

/-- A data read of a bound target is the device's read at the offset in its range. -/
theorem memRead_device {s : State} {a : Word} {tg : Target} (n : Nat) (ha : targetAt a = some tg)
    (hb : tg ∉ s.cfg.unbound) :
    memRead a n s = match deviceRead tg (a - BitVec.ofNat 64 (targetBase tg)).toNat n s with
      | .ok v t => .ok (leValue (leBytes n v)) t
      | .eos t => .stopped (.next t)
      | .unsupported => .stopped (refuseDeviceAccess a s) := by
  rw [memRead, dataAccess, transport]
  simp only [reduceCtorEq, and_false, if_false, ha, hb, deviceAccess]
  cases deviceRead tg (a - BitVec.ofNat 64 (targetBase tg)).toNat n s <;> rfl

/-- A data write of a bound target is the device's write at the offset in its range. -/
theorem memWrite_device {s : State} {a : Word} {tg : Target} (n : Nat) (v : Word) (ha : targetAt a = some tg)
    (hb : tg ∉ s.cfg.unbound) (ht : a ≠ s.cfg.tohostAddr) :
    memWrite a n v s =
      match deviceWrite tg (a - BitVec.ofNat 64 (targetBase tg)).toNat n (leValue (leBytes n v)) s with
      | .ok _ t => .ok 0 t
      | .eos t => .stopped (.next t)
      | .unsupported => .stopped (refuseDeviceAccess a s) := by
  rw [memWrite, dataAccess, transport]
  simp only [ht, false_and, if_false, ha, hb, deviceAccess]
  cases deviceWrite tg (a - BitVec.ofNat 64 (targetBase tg)).toNat n (leValue (leBytes n v)) s <;> rfl

/-- ECALL's write service over main memory appends the bytes to the trace stream (R398). -/
theorem emitBytes_main {a : Word} (len : Nat) : ∀ {i : Nat} {s : State},
    (∀ k, k < len → MainMemory s.cfg (addOffset s.cfg.xlen a (BitVec.ofNat 64 (i + k))) 1) →
    emitBytes a i len s = .next { s with trace := s.trace ++ (List.range len).map fun k =>
      (BitVec.ofNat 64 (s.memNumber (addOffset s.cfg.xlen a (BitVec.ofNat 64 (i + k))) 1)).setWidth 8 } := by
  induction len with
  | zero => intro i s _; simp [emitBytes]
  | succ len ih =>
    intro i s h
    have h0 := h 0 (by omega)
    rw [Nat.add_zero] at h0
    rw [emitBytes, memRead_main (by decide) h0]
    simp only [Access.andThen]
    rw [ih (fun k hk => by simpa [Nat.add_assoc, Nat.add_comm 1 k] using h (k + 1) (by omega))]
    simp only [State.emitTrace, State.memNumber, List.range_succ_eq_map, List.map_cons, List.map_map, List.append_assoc,
      List.singleton_append, Nat.add_zero]
    congr 4
    refine List.map_congr_left fun k _ => ?_
    simp only [Function.comp_apply, Nat.succ_eq_add_one]
    rw [show i + 1 + k = i + (k + 1) by omega]

end Sys2Proof.Machine
end

