-- ==== Sys2Proof/Laws/PerInstr.lean ====
section
/-! SUPPORT. A statement about every instruction as syntax: the length bits of its encoding (R140). -/

namespace Sys2Proof.Laws.LengthBits

open Sys2Proof Sys2Proof.Machine

/-- R140: the low two bits of the encoding say whether the instruction is compressed, and a compressed instruction has no bit
above its 16 (R141). -/
def Statement (i : Instr) : Prop :=
  isCompressedWord (encode i) = Instr.isCompressed i ∧ (Instr.isCompressed i = true → (encode i).toNat < 2 ^ 16)

/-- The low two bits of a word are those of its last field. -/
theorem low_append {n m : Nat} (x : BitVec n) (op : BitVec m) (hm : 2 ≤ m) :
    (x ++ op).extractLsb 1 0 = op.extractLsb 1 0 := by
  apply BitVec.eq_of_getLsbD_eq
  intro i hi
  have h : i < m := by omega
  simp [BitVec.getLsbD_append, h]

theorem long {i : Instr} (h : Instr.isCompressed i = false) (he : (encode i).extractLsb 1 0 = 3#2) : Statement i := by
  refine ⟨?_, fun hc => ?_⟩
  · rw [h, isCompressedWord, he]; rfl
  · rw [h] at hc; cases hc

theorem short {i : Instr} (h : BitVec 16) (hi : Instr.isCompressed i = true) (he : encode i = half h)
    (hl : h.extractLsb 1 0 ≠ 3#2) : Statement i := by
  refine ⟨?_, fun _ => ?_⟩
  · rw [hi, he, isCompressedWord, half, low_append _ _ (by decide)]
    simpa using hl
  · rw [he, half, BitVec.toNat_append]
    simpa using h.isLt

theorem low_encR (f7 : BitVec 7) (rs2 rs1 : Reg) (f3 : BitVec 3) (rd : Reg) (op : BitVec 7) :
    (encR f7 rs2 rs1 f3 rd op).extractLsb 1 0 = op.extractLsb 1 0 := low_append _ _ (by decide)

theorem low_encI (imm : BitVec 12) (rs1 : Reg) (f3 : BitVec 3) (rd : Reg) (op : BitVec 7) :
    (encI imm rs1 f3 rd op).extractLsb 1 0 = op.extractLsb 1 0 := low_append _ _ (by decide)

theorem low_encShift (f6 : BitVec 6) (shamt : BitVec 6) (rs1 : Reg) (f3 : BitVec 3) (rd : Reg) (op : BitVec 7) :
    (encShift f6 shamt rs1 f3 rd op).extractLsb 1 0 = op.extractLsb 1 0 := low_append _ _ (by decide)

theorem low_encS (imm : BitVec 12) (rs2 rs1 : Reg) (f3 : BitVec 3) (op : BitVec 7) :
    (encS imm rs2 rs1 f3 op).extractLsb 1 0 = op.extractLsb 1 0 := low_append _ _ (by decide)

theorem low_encB (off : BitVec 13) (rs2 rs1 : Reg) (f3 : BitVec 3) (op : BitVec 7) :
    (encB off rs2 rs1 f3 op).extractLsb 1 0 = op.extractLsb 1 0 := low_append _ _ (by decide)

theorem low_encU (imm20 : BitVec 20) (rd : Reg) (op : BitVec 7) :
    (encU imm20 rd op).extractLsb 1 0 = op.extractLsb 1 0 := low_append _ _ (by decide)

theorem low_encJ (off : BitVec 21) (rd : Reg) (op : BitVec 7) :
    (encJ off rd op).extractLsb 1 0 = op.extractLsb 1 0 := low_append _ _ (by decide)

theorem low_encAmo (f5 : BitVec 5) (aq rl : BitVec 1) (rs2 rs1 : Reg) (f3 : BitVec 3) (rd : Reg) (op : BitVec 7) :
    (encAmo f5 aq rl rs2 rs1 f3 rd op).extractLsb 1 0 = op.extractLsb 1 0 := low_append _ _ (by decide)

theorem lui (rd : Reg) (imm20 : BitVec 20) : Statement (.lui rd imm20) :=
  long rfl (low_encU _ _ _)

theorem auipc (rd : Reg) (imm20 : BitVec 20) : Statement (.auipc rd imm20) :=
  long rfl (low_encU _ _ _)

theorem jal (rd : Reg) (off : BitVec 21) : Statement (.jal rd off) :=
  long rfl (low_encJ _ _ _)

theorem jalr (rd rs1 : Reg) (imm : BitVec 12) : Statement (.jalr rd rs1 imm) :=
  long rfl (low_encI _ _ _ _ _)

theorem beq (rs1 rs2 : Reg) (off : BitVec 13) : Statement (.beq rs1 rs2 off) :=
  long rfl (low_encB _ _ _ _ _)

theorem bne (rs1 rs2 : Reg) (off : BitVec 13) : Statement (.bne rs1 rs2 off) :=
  long rfl (low_encB _ _ _ _ _)

theorem blt (rs1 rs2 : Reg) (off : BitVec 13) : Statement (.blt rs1 rs2 off) :=
  long rfl (low_encB _ _ _ _ _)

theorem bge (rs1 rs2 : Reg) (off : BitVec 13) : Statement (.bge rs1 rs2 off) :=
  long rfl (low_encB _ _ _ _ _)

theorem bltu (rs1 rs2 : Reg) (off : BitVec 13) : Statement (.bltu rs1 rs2 off) :=
  long rfl (low_encB _ _ _ _ _)

theorem bgeu (rs1 rs2 : Reg) (off : BitVec 13) : Statement (.bgeu rs1 rs2 off) :=
  long rfl (low_encB _ _ _ _ _)

theorem lb (rd rs1 : Reg) (imm : BitVec 12) : Statement (.lb rd rs1 imm) :=
  long rfl (low_encI _ _ _ _ _)

theorem lh (rd rs1 : Reg) (imm : BitVec 12) : Statement (.lh rd rs1 imm) :=
  long rfl (low_encI _ _ _ _ _)

theorem lw (rd rs1 : Reg) (imm : BitVec 12) : Statement (.lw rd rs1 imm) :=
  long rfl (low_encI _ _ _ _ _)

theorem ld (rd rs1 : Reg) (imm : BitVec 12) : Statement (.ld rd rs1 imm) :=
  long rfl (low_encI _ _ _ _ _)

theorem lbu (rd rs1 : Reg) (imm : BitVec 12) : Statement (.lbu rd rs1 imm) :=
  long rfl (low_encI _ _ _ _ _)

theorem lhu (rd rs1 : Reg) (imm : BitVec 12) : Statement (.lhu rd rs1 imm) :=
  long rfl (low_encI _ _ _ _ _)

theorem lwu (rd rs1 : Reg) (imm : BitVec 12) : Statement (.lwu rd rs1 imm) :=
  long rfl (low_encI _ _ _ _ _)

theorem sb (rs1 rs2 : Reg) (imm : BitVec 12) : Statement (.sb rs1 rs2 imm) :=
  long rfl (low_encS _ _ _ _ _)

theorem sh (rs1 rs2 : Reg) (imm : BitVec 12) : Statement (.sh rs1 rs2 imm) :=
  long rfl (low_encS _ _ _ _ _)

theorem sw (rs1 rs2 : Reg) (imm : BitVec 12) : Statement (.sw rs1 rs2 imm) :=
  long rfl (low_encS _ _ _ _ _)

theorem sd (rs1 rs2 : Reg) (imm : BitVec 12) : Statement (.sd rs1 rs2 imm) :=
  long rfl (low_encS _ _ _ _ _)

theorem addi (rd rs1 : Reg) (imm : BitVec 12) : Statement (.addi rd rs1 imm) :=
  long rfl (low_encI _ _ _ _ _)

theorem slti (rd rs1 : Reg) (imm : BitVec 12) : Statement (.slti rd rs1 imm) :=
  long rfl (low_encI _ _ _ _ _)

theorem sltiu (rd rs1 : Reg) (imm : BitVec 12) : Statement (.sltiu rd rs1 imm) :=
  long rfl (low_encI _ _ _ _ _)

theorem xori (rd rs1 : Reg) (imm : BitVec 12) : Statement (.xori rd rs1 imm) :=
  long rfl (low_encI _ _ _ _ _)

theorem ori (rd rs1 : Reg) (imm : BitVec 12) : Statement (.ori rd rs1 imm) :=
  long rfl (low_encI _ _ _ _ _)

theorem andi (rd rs1 : Reg) (imm : BitVec 12) : Statement (.andi rd rs1 imm) :=
  long rfl (low_encI _ _ _ _ _)

theorem slli (rd rs1 : Reg) (shamt : BitVec 6) : Statement (.slli rd rs1 shamt) :=
  long rfl (low_encShift _ _ _ _ _ _)

theorem srli (rd rs1 : Reg) (shamt : BitVec 6) : Statement (.srli rd rs1 shamt) :=
  long rfl (low_encShift _ _ _ _ _ _)

theorem srai (rd rs1 : Reg) (shamt : BitVec 6) : Statement (.srai rd rs1 shamt) :=
  long rfl (low_encShift _ _ _ _ _ _)

theorem add (rd rs1 rs2 : Reg) : Statement (.add rd rs1 rs2) :=
  long rfl (low_encR _ _ _ _ _ _)

theorem sub (rd rs1 rs2 : Reg) : Statement (.sub rd rs1 rs2) :=
  long rfl (low_encR _ _ _ _ _ _)

theorem sll (rd rs1 rs2 : Reg) : Statement (.sll rd rs1 rs2) :=
  long rfl (low_encR _ _ _ _ _ _)

theorem slt (rd rs1 rs2 : Reg) : Statement (.slt rd rs1 rs2) :=
  long rfl (low_encR _ _ _ _ _ _)

theorem sltu (rd rs1 rs2 : Reg) : Statement (.sltu rd rs1 rs2) :=
  long rfl (low_encR _ _ _ _ _ _)

theorem xor (rd rs1 rs2 : Reg) : Statement (.xor rd rs1 rs2) :=
  long rfl (low_encR _ _ _ _ _ _)

theorem srl (rd rs1 rs2 : Reg) : Statement (.srl rd rs1 rs2) :=
  long rfl (low_encR _ _ _ _ _ _)

theorem sra (rd rs1 rs2 : Reg) : Statement (.sra rd rs1 rs2) :=
  long rfl (low_encR _ _ _ _ _ _)

theorem or (rd rs1 rs2 : Reg) : Statement (.or rd rs1 rs2) :=
  long rfl (low_encR _ _ _ _ _ _)

theorem and (rd rs1 rs2 : Reg) : Statement (.and rd rs1 rs2) :=
  long rfl (low_encR _ _ _ _ _ _)

theorem addiw (rd rs1 : Reg) (imm : BitVec 12) : Statement (.addiw rd rs1 imm) :=
  long rfl (low_encI _ _ _ _ _)

theorem slliw (rd rs1 : Reg) (shamt : BitVec 5) : Statement (.slliw rd rs1 shamt) :=
  long rfl (low_encR _ _ _ _ _ _)

theorem srliw (rd rs1 : Reg) (shamt : BitVec 5) : Statement (.srliw rd rs1 shamt) :=
  long rfl (low_encR _ _ _ _ _ _)

theorem sraiw (rd rs1 : Reg) (shamt : BitVec 5) : Statement (.sraiw rd rs1 shamt) :=
  long rfl (low_encR _ _ _ _ _ _)

theorem addw (rd rs1 rs2 : Reg) : Statement (.addw rd rs1 rs2) :=
  long rfl (low_encR _ _ _ _ _ _)

theorem subw (rd rs1 rs2 : Reg) : Statement (.subw rd rs1 rs2) :=
  long rfl (low_encR _ _ _ _ _ _)

theorem sllw (rd rs1 rs2 : Reg) : Statement (.sllw rd rs1 rs2) :=
  long rfl (low_encR _ _ _ _ _ _)

theorem srlw (rd rs1 rs2 : Reg) : Statement (.srlw rd rs1 rs2) :=
  long rfl (low_encR _ _ _ _ _ _)

theorem sraw (rd rs1 rs2 : Reg) : Statement (.sraw rd rs1 rs2) :=
  long rfl (low_encR _ _ _ _ _ _)

theorem mul (rd rs1 rs2 : Reg) : Statement (.mul rd rs1 rs2) :=
  long rfl (low_encR _ _ _ _ _ _)

theorem mulh (rd rs1 rs2 : Reg) : Statement (.mulh rd rs1 rs2) :=
  long rfl (low_encR _ _ _ _ _ _)

theorem mulhsu (rd rs1 rs2 : Reg) : Statement (.mulhsu rd rs1 rs2) :=
  long rfl (low_encR _ _ _ _ _ _)

theorem mulhu (rd rs1 rs2 : Reg) : Statement (.mulhu rd rs1 rs2) :=
  long rfl (low_encR _ _ _ _ _ _)

theorem div (rd rs1 rs2 : Reg) : Statement (.div rd rs1 rs2) :=
  long rfl (low_encR _ _ _ _ _ _)

theorem divu (rd rs1 rs2 : Reg) : Statement (.divu rd rs1 rs2) :=
  long rfl (low_encR _ _ _ _ _ _)

theorem rem (rd rs1 rs2 : Reg) : Statement (.rem rd rs1 rs2) :=
  long rfl (low_encR _ _ _ _ _ _)

theorem remu (rd rs1 rs2 : Reg) : Statement (.remu rd rs1 rs2) :=
  long rfl (low_encR _ _ _ _ _ _)

theorem mulw (rd rs1 rs2 : Reg) : Statement (.mulw rd rs1 rs2) :=
  long rfl (low_encR _ _ _ _ _ _)

theorem divw (rd rs1 rs2 : Reg) : Statement (.divw rd rs1 rs2) :=
  long rfl (low_encR _ _ _ _ _ _)

theorem divuw (rd rs1 rs2 : Reg) : Statement (.divuw rd rs1 rs2) :=
  long rfl (low_encR _ _ _ _ _ _)

theorem remw (rd rs1 rs2 : Reg) : Statement (.remw rd rs1 rs2) :=
  long rfl (low_encR _ _ _ _ _ _)

theorem remuw (rd rs1 rs2 : Reg) : Statement (.remuw rd rs1 rs2) :=
  long rfl (low_encR _ _ _ _ _ _)

theorem lrW (aq rl : BitVec 1) (rd rs1 : Reg) : Statement (.lrW aq rl rd rs1) :=
  long rfl (low_encAmo _ _ _ _ _ _ _ _)

theorem scW (aq rl : BitVec 1) (rd rs1 rs2 : Reg) : Statement (.scW aq rl rd rs1 rs2) :=
  long rfl (low_encAmo _ _ _ _ _ _ _ _)

theorem amoswapW (aq rl : BitVec 1) (rd rs1 rs2 : Reg) : Statement (.amoswapW aq rl rd rs1 rs2) :=
  long rfl (low_encAmo _ _ _ _ _ _ _ _)

theorem amoaddW (aq rl : BitVec 1) (rd rs1 rs2 : Reg) : Statement (.amoaddW aq rl rd rs1 rs2) :=
  long rfl (low_encAmo _ _ _ _ _ _ _ _)

theorem amoxorW (aq rl : BitVec 1) (rd rs1 rs2 : Reg) : Statement (.amoxorW aq rl rd rs1 rs2) :=
  long rfl (low_encAmo _ _ _ _ _ _ _ _)

theorem amoandW (aq rl : BitVec 1) (rd rs1 rs2 : Reg) : Statement (.amoandW aq rl rd rs1 rs2) :=
  long rfl (low_encAmo _ _ _ _ _ _ _ _)

theorem amoorW (aq rl : BitVec 1) (rd rs1 rs2 : Reg) : Statement (.amoorW aq rl rd rs1 rs2) :=
  long rfl (low_encAmo _ _ _ _ _ _ _ _)

theorem amominW (aq rl : BitVec 1) (rd rs1 rs2 : Reg) : Statement (.amominW aq rl rd rs1 rs2) :=
  long rfl (low_encAmo _ _ _ _ _ _ _ _)

theorem amomaxW (aq rl : BitVec 1) (rd rs1 rs2 : Reg) : Statement (.amomaxW aq rl rd rs1 rs2) :=
  long rfl (low_encAmo _ _ _ _ _ _ _ _)

theorem amominuW (aq rl : BitVec 1) (rd rs1 rs2 : Reg) : Statement (.amominuW aq rl rd rs1 rs2) :=
  long rfl (low_encAmo _ _ _ _ _ _ _ _)

theorem amomaxuW (aq rl : BitVec 1) (rd rs1 rs2 : Reg) : Statement (.amomaxuW aq rl rd rs1 rs2) :=
  long rfl (low_encAmo _ _ _ _ _ _ _ _)

theorem lrD (aq rl : BitVec 1) (rd rs1 : Reg) : Statement (.lrD aq rl rd rs1) :=
  long rfl (low_encAmo _ _ _ _ _ _ _ _)

theorem scD (aq rl : BitVec 1) (rd rs1 rs2 : Reg) : Statement (.scD aq rl rd rs1 rs2) :=
  long rfl (low_encAmo _ _ _ _ _ _ _ _)

theorem amoswapD (aq rl : BitVec 1) (rd rs1 rs2 : Reg) : Statement (.amoswapD aq rl rd rs1 rs2) :=
  long rfl (low_encAmo _ _ _ _ _ _ _ _)

theorem amoaddD (aq rl : BitVec 1) (rd rs1 rs2 : Reg) : Statement (.amoaddD aq rl rd rs1 rs2) :=
  long rfl (low_encAmo _ _ _ _ _ _ _ _)

theorem amoxorD (aq rl : BitVec 1) (rd rs1 rs2 : Reg) : Statement (.amoxorD aq rl rd rs1 rs2) :=
  long rfl (low_encAmo _ _ _ _ _ _ _ _)

theorem amoandD (aq rl : BitVec 1) (rd rs1 rs2 : Reg) : Statement (.amoandD aq rl rd rs1 rs2) :=
  long rfl (low_encAmo _ _ _ _ _ _ _ _)

theorem amoorD (aq rl : BitVec 1) (rd rs1 rs2 : Reg) : Statement (.amoorD aq rl rd rs1 rs2) :=
  long rfl (low_encAmo _ _ _ _ _ _ _ _)

theorem amominD (aq rl : BitVec 1) (rd rs1 rs2 : Reg) : Statement (.amominD aq rl rd rs1 rs2) :=
  long rfl (low_encAmo _ _ _ _ _ _ _ _)

theorem amomaxD (aq rl : BitVec 1) (rd rs1 rs2 : Reg) : Statement (.amomaxD aq rl rd rs1 rs2) :=
  long rfl (low_encAmo _ _ _ _ _ _ _ _)

theorem amominuD (aq rl : BitVec 1) (rd rs1 rs2 : Reg) : Statement (.amominuD aq rl rd rs1 rs2) :=
  long rfl (low_encAmo _ _ _ _ _ _ _ _)

theorem amomaxuD (aq rl : BitVec 1) (rd rs1 rs2 : Reg) : Statement (.amomaxuD aq rl rd rs1 rs2) :=
  long rfl (low_encAmo _ _ _ _ _ _ _ _)

theorem csrrw (rd : Reg) (csr : CsrAddr) (rs1 : Reg) : Statement (.csrrw rd csr rs1) :=
  long rfl (low_encI _ _ _ _ _)

theorem csrrs (rd : Reg) (csr : CsrAddr) (rs1 : Reg) : Statement (.csrrs rd csr rs1) :=
  long rfl (low_encI _ _ _ _ _)

theorem csrrc (rd : Reg) (csr : CsrAddr) (rs1 : Reg) : Statement (.csrrc rd csr rs1) :=
  long rfl (low_encI _ _ _ _ _)

theorem csrrwi (rd : Reg) (csr : CsrAddr) (uimm : BitVec 5) : Statement (.csrrwi rd csr uimm) :=
  long rfl (low_encI _ _ _ _ _)

theorem csrrsi (rd : Reg) (csr : CsrAddr) (uimm : BitVec 5) : Statement (.csrrsi rd csr uimm) :=
  long rfl (low_encI _ _ _ _ _)

theorem csrrci (rd : Reg) (csr : CsrAddr) (uimm : BitVec 5) : Statement (.csrrci rd csr uimm) :=
  long rfl (low_encI _ _ _ _ _)

theorem ecall : Statement .ecall :=
  long rfl (by decide)

theorem ebreak : Statement .ebreak :=
  long rfl (by decide)

theorem mret : Statement .mret :=
  long rfl (by decide)

theorem wfi : Statement .wfi :=
  long rfl (by decide)

theorem fence (fm pred succ : BitVec 4) (rs1 rd : Reg) : Statement (.fence fm pred succ rs1 rd) :=
  long rfl (low_encI _ _ _ _ _)

theorem fenceI (imm : BitVec 12) (rs1 rd : Reg) : Statement (.fenceI imm rs1 rd) :=
  long rfl (low_encI _ _ _ _ _)

theorem cAddi4spn (rd : CReg) (uimm : BitVec 10) : Statement (.cAddi4spn rd uimm) :=
  short _ rfl rfl ((low_append _ 0#2 (by decide)).trans_ne (by decide))

theorem cLw (rd rs1 : CReg) (uimm : BitVec 7) : Statement (.cLw rd rs1 uimm) :=
  short _ rfl rfl ((low_append _ 0#2 (by decide)).trans_ne (by decide))

theorem cLd (rd rs1 : CReg) (uimm : BitVec 8) : Statement (.cLd rd rs1 uimm) :=
  short _ rfl rfl ((low_append _ 0#2 (by decide)).trans_ne (by decide))

theorem cSw (rs1 rs2 : CReg) (uimm : BitVec 7) : Statement (.cSw rs1 rs2 uimm) :=
  short _ rfl rfl ((low_append _ 0#2 (by decide)).trans_ne (by decide))

theorem cSd (rs1 rs2 : CReg) (uimm : BitVec 8) : Statement (.cSd rs1 rs2 uimm) :=
  short _ rfl rfl ((low_append _ 0#2 (by decide)).trans_ne (by decide))

theorem cNop (imm : BitVec 6) : Statement (.cNop imm) :=
  short _ rfl rfl ((low_append _ 1#2 (by decide)).trans_ne (by decide))

theorem cAddi (rd : Reg) (imm : BitVec 6) : Statement (.cAddi rd imm) :=
  short _ rfl rfl ((low_append _ 1#2 (by decide)).trans_ne (by decide))

theorem cJal (off : BitVec 12) : Statement (.cJal off) :=
  short _ rfl rfl ((low_append _ 1#2 (by decide)).trans_ne (by decide))

theorem cAddiw (rd : Reg) (imm : BitVec 6) : Statement (.cAddiw rd imm) :=
  short _ rfl rfl ((low_append _ 1#2 (by decide)).trans_ne (by decide))

theorem cLi (rd : Reg) (imm : BitVec 6) : Statement (.cLi rd imm) :=
  short _ rfl rfl ((low_append _ 1#2 (by decide)).trans_ne (by decide))

theorem cAddi16sp (imm : BitVec 10) : Statement (.cAddi16sp imm) :=
  short _ rfl rfl ((low_append _ 1#2 (by decide)).trans_ne (by decide))

theorem cLui (rd : Reg) (imm : BitVec 6) : Statement (.cLui rd imm) :=
  short _ rfl rfl ((low_append _ 1#2 (by decide)).trans_ne (by decide))

theorem cSrli (rd : CReg) (shamt : BitVec 6) : Statement (.cSrli rd shamt) :=
  short _ rfl rfl ((low_append _ 1#2 (by decide)).trans_ne (by decide))

theorem cSrai (rd : CReg) (shamt : BitVec 6) : Statement (.cSrai rd shamt) :=
  short _ rfl rfl ((low_append _ 1#2 (by decide)).trans_ne (by decide))

theorem cAndi (rd : CReg) (imm : BitVec 6) : Statement (.cAndi rd imm) :=
  short _ rfl rfl ((low_append _ 1#2 (by decide)).trans_ne (by decide))

theorem cSub (rd rs2 : CReg) : Statement (.cSub rd rs2) :=
  short _ rfl rfl ((low_append _ 1#2 (by decide)).trans_ne (by decide))

theorem cXor (rd rs2 : CReg) : Statement (.cXor rd rs2) :=
  short _ rfl rfl ((low_append _ 1#2 (by decide)).trans_ne (by decide))

theorem cOr (rd rs2 : CReg) : Statement (.cOr rd rs2) :=
  short _ rfl rfl ((low_append _ 1#2 (by decide)).trans_ne (by decide))

theorem cAnd (rd rs2 : CReg) : Statement (.cAnd rd rs2) :=
  short _ rfl rfl ((low_append _ 1#2 (by decide)).trans_ne (by decide))

theorem cSubw (rd rs2 : CReg) : Statement (.cSubw rd rs2) :=
  short _ rfl rfl ((low_append _ 1#2 (by decide)).trans_ne (by decide))

theorem cAddw (rd rs2 : CReg) : Statement (.cAddw rd rs2) :=
  short _ rfl rfl ((low_append _ 1#2 (by decide)).trans_ne (by decide))

theorem cJ (off : BitVec 12) : Statement (.cJ off) :=
  short _ rfl rfl ((low_append _ 1#2 (by decide)).trans_ne (by decide))

theorem cBeqz (rs1 : CReg) (off : BitVec 9) : Statement (.cBeqz rs1 off) :=
  short _ rfl rfl ((low_append _ 1#2 (by decide)).trans_ne (by decide))

theorem cBnez (rs1 : CReg) (off : BitVec 9) : Statement (.cBnez rs1 off) :=
  short _ rfl rfl ((low_append _ 1#2 (by decide)).trans_ne (by decide))

theorem cSlli (rd : Reg) (shamt : BitVec 6) : Statement (.cSlli rd shamt) :=
  short _ rfl rfl ((low_append _ 2#2 (by decide)).trans_ne (by decide))

theorem cLwsp (rd : Reg) (uimm : BitVec 8) : Statement (.cLwsp rd uimm) :=
  short _ rfl rfl ((low_append _ 2#2 (by decide)).trans_ne (by decide))

theorem cLdsp (rd : Reg) (uimm : BitVec 9) : Statement (.cLdsp rd uimm) :=
  short _ rfl rfl ((low_append _ 2#2 (by decide)).trans_ne (by decide))

theorem cJr (rs1 : Reg) : Statement (.cJr rs1) :=
  short _ rfl rfl ((low_append _ 2#2 (by decide)).trans_ne (by decide))

theorem cMv (rd rs2 : Reg) : Statement (.cMv rd rs2) :=
  short _ rfl rfl ((low_append _ 2#2 (by decide)).trans_ne (by decide))

theorem cEbreak : Statement .cEbreak :=
  short _ rfl rfl (by decide)

theorem cJalr (rs1 : Reg) : Statement (.cJalr rs1) :=
  short _ rfl rfl ((low_append _ 2#2 (by decide)).trans_ne (by decide))

theorem cAdd (rd rs2 : Reg) : Statement (.cAdd rd rs2) :=
  short _ rfl rfl ((low_append _ 2#2 (by decide)).trans_ne (by decide))

theorem cSwsp (rs2 : Reg) (uimm : BitVec 8) : Statement (.cSwsp rs2 uimm) :=
  short _ rfl rfl ((low_append _ 2#2 (by decide)).trans_ne (by decide))

theorem cSdsp (rs2 : Reg) (uimm : BitVec 9) : Statement (.cSdsp rs2 uimm) :=
  short _ rfl rfl ((low_append _ 2#2 (by decide)).trans_ne (by decide))

end Sys2Proof.Laws.LengthBits
end

