-- ==== Sys2Proof/Tests/Slice0.lean ====
section
/-! SUPPORT. Tests: expected values from spec/95_test_vectors.md (V…) or worked by hand from the rule named, and a witness for
each statement with hypotheses. -/

namespace Sys2Proof.Tests

open Sys2Proof Sys2Proof.Machine

/-! ### Helpers -/

def withRegs (l : List (Reg × Word)) (s : State) : State := l.foldl (fun s p => s.setX p.1 p.2) s

/-- The 2-stage machine with an instruction at `pc` in EX. -/
def core2 (xl : XLen) (pc : Word) (l : List (Reg × Word)) : State :=
  withRegs l { State.reset with
    cfg := { defaultConfig with xlen := xl }
    two := ⟨pc + 4, ⟨true, pc, 0⟩, .bubble, false⟩ }

/-- The bytes of table 2.3 at 0x1000_2000. -/
def withBytes (s : State) : State :=
  { s with mem := s.mem.writeBytes s.cfg.xlen 0x10002000 [0x80, 0xFF, 0x34, 0x12, 0x78, 0x56, 0x00, 0x80] }

def withCsr (a : CsrAddr) (v : Word) (s : State) : State := s.writeCsr a v

def observe {α : Type} (f : State → α) (r : Result) : Option α :=
  match r with
  | .next t => some (f t)
  | _ => none

def result (r : Reg) : Result → Option Word := observe (·.x r)
def target : Result → Option (Option Word) := observe (·.ex.target)
def stopOf : Result → Option (Option RunOutcome) := observe (·.ex.stop)
def traceOf : Result → Option (List Byte) := observe (·.trace)
def csrAfter (r : Reg) (a : CsrAddr) : Result → Option (Word × Word) := observe fun t => (t.x r, t.csr.get a)
def bytesAfter : Result → Option (List Byte) := observe fun t => t.mem.readBytes t.cfg.xlen 0x10002000 8

def decodesAll (xl : XLen) (l : List (BitVec 32 × Instr)) : Bool :=
  l.all fun p => decide ((decode xl p.1).toOption = some p.2) && decide (encode p.2 = p.1) && p.2.wf xl

theorem test_decode_upper_and_control : decodesAll .rv64 [
    (0b1101001_01110_01011_010_01010_0110111, (.lui 10 0xD2E5A)),
    (0b1101001_01110_01011_010_01010_0010111, (.auipc 10 0xD2E5A)),
    (0b1100101_10101_10100_101_01010_1101111, (.jal 10 0x1A5CB4)),
    (0b1101001_01110_10101_000_01010_1100111, (.jalr 10 21 0xD2E)),
    (0b1010010_00110_10101_000_11101_1100011, (.beq 21 6 0x1A5C)),
    (0b1010010_00110_10101_001_11101_1100011, (.bne 21 6 0x1A5C)),
    (0b1010010_00110_10101_100_11101_1100011, (.blt 21 6 0x1A5C)),
    (0b1010010_00110_10101_101_11101_1100011, (.bge 21 6 0x1A5C)),
    (0b1010010_00110_10101_110_11101_1100011, (.bltu 21 6 0x1A5C)),
    (0b1010010_00110_10101_111_11101_1100011, (.bgeu 21 6 0x1A5C))] = true := by decide

theorem test_decode_load_store : decodesAll .rv64 [
    (0b1101001_01110_10101_000_01010_0000011, (.lb 10 21 0xD2E)),
    (0b1101001_01110_10101_001_01010_0000011, (.lh 10 21 0xD2E)),
    (0b1101001_01110_10101_010_01010_0000011, (.lw 10 21 0xD2E)),
    (0b1101001_01110_10101_011_01010_0000011, (.ld 10 21 0xD2E)),
    (0b1101001_01110_10101_100_01010_0000011, (.lbu 10 21 0xD2E)),
    (0b1101001_01110_10101_101_01010_0000011, (.lhu 10 21 0xD2E)),
    (0b1101001_01110_10101_110_01010_0000011, (.lwu 10 21 0xD2E)),
    (0b1101001_00110_10101_000_01110_0100011, (.sb 21 6 0xD2E)),
    (0b1101001_00110_10101_001_01110_0100011, (.sh 21 6 0xD2E)),
    (0b1101001_00110_10101_010_01110_0100011, (.sw 21 6 0xD2E)),
    (0b1101001_00110_10101_011_01110_0100011, (.sd 21 6 0xD2E))] = true := by decide

theorem test_decode_immediate : decodesAll .rv64 [
    (0b1101001_01110_10101_000_01010_0010011, (.addi 10 21 0xD2E)),
    (0b1101001_01110_10101_010_01010_0010011, (.slti 10 21 0xD2E)),
    (0b1101001_01110_10101_011_01010_0010011, (.sltiu 10 21 0xD2E)),
    (0b1101001_01110_10101_100_01010_0010011, (.xori 10 21 0xD2E)),
    (0b1101001_01110_10101_110_01010_0010011, (.ori 10 21 0xD2E)),
    (0b1101001_01110_10101_111_01010_0010011, (.andi 10 21 0xD2E)),
    (0b0000001_00110_10101_001_01010_0010011, (.slli 10 21 0x26)),
    (0b0000001_00110_10101_101_01010_0010011, (.srli 10 21 0x26)),
    (0b0100001_00110_10101_101_01010_0010011, (.srai 10 21 0x26))] = true := by decide

theorem test_decode_register : decodesAll .rv32 [
    (0b0000000_00110_10101_000_01010_0110011, (.add 10 21 6)),
    (0b0100000_00110_10101_000_01010_0110011, (.sub 10 21 6)),
    (0b0000000_00110_10101_001_01010_0110011, (.sll 10 21 6)),
    (0b0000000_00110_10101_010_01010_0110011, (.slt 10 21 6)),
    (0b0000000_00110_10101_011_01010_0110011, (.sltu 10 21 6)),
    (0b0000000_00110_10101_100_01010_0110011, (.xor 10 21 6)),
    (0b0000000_00110_10101_101_01010_0110011, (.srl 10 21 6)),
    (0b0100000_00110_10101_101_01010_0110011, (.sra 10 21 6)),
    (0b0000000_00110_10101_110_01010_0110011, (.or 10 21 6)),
    (0b0000000_00110_10101_111_01010_0110011, (.and 10 21 6))] = true := by decide

theorem test_decode_word : decodesAll .rv64 [
    (0b1101001_01110_10101_000_01010_0011011, (.addiw 10 21 0xD2E)),
    (0b0000000_00110_10101_001_01010_0011011, (.slliw 10 21 0x6)),
    (0b0000000_00110_10101_101_01010_0011011, (.srliw 10 21 0x6)),
    (0b0100000_00110_10101_101_01010_0011011, (.sraiw 10 21 0x6)),
    (0b0000000_00110_10101_000_01010_0111011, (.addw 10 21 6)),
    (0b0100000_00110_10101_000_01010_0111011, (.subw 10 21 6)),
    (0b0000000_00110_10101_001_01010_0111011, (.sllw 10 21 6)),
    (0b0000000_00110_10101_101_01010_0111011, (.srlw 10 21 6)),
    (0b0100000_00110_10101_101_01010_0111011, (.sraw 10 21 6))] = true := by decide

theorem test_decode_muldiv : decodesAll .rv64 [
    (0b0000001_00110_10101_000_01010_0110011, (.mul 10 21 6)),
    (0b0000001_00110_10101_001_01010_0110011, (.mulh 10 21 6)),
    (0b0000001_00110_10101_010_01010_0110011, (.mulhsu 10 21 6)),
    (0b0000001_00110_10101_011_01010_0110011, (.mulhu 10 21 6)),
    (0b0000001_00110_10101_100_01010_0110011, (.div 10 21 6)),
    (0b0000001_00110_10101_101_01010_0110011, (.divu 10 21 6)),
    (0b0000001_00110_10101_110_01010_0110011, (.rem 10 21 6)),
    (0b0000001_00110_10101_111_01010_0110011, (.remu 10 21 6)),
    (0b0000001_00110_10101_000_01010_0111011, (.mulw 10 21 6)),
    (0b0000001_00110_10101_100_01010_0111011, (.divw 10 21 6)),
    (0b0000001_00110_10101_101_01010_0111011, (.divuw 10 21 6)),
    (0b0000001_00110_10101_110_01010_0111011, (.remw 10 21 6)),
    (0b0000001_00110_10101_111_01010_0111011, (.remuw 10 21 6))] = true := by decide

theorem test_decode_atomic_w : decodesAll .rv64 [
    (0b0001010_00000_10101_010_01010_0101111, (.lrW 0x1 0x0 10 21)),
    (0b0001110_00110_10101_010_01010_0101111, (.scW 0x1 0x0 10 21 6)),
    (0b0000110_00110_10101_010_01010_0101111, (.amoswapW 0x1 0x0 10 21 6)),
    (0b0000010_00110_10101_010_01010_0101111, (.amoaddW 0x1 0x0 10 21 6)),
    (0b0010010_00110_10101_010_01010_0101111, (.amoxorW 0x1 0x0 10 21 6)),
    (0b0110010_00110_10101_010_01010_0101111, (.amoandW 0x1 0x0 10 21 6)),
    (0b0100010_00110_10101_010_01010_0101111, (.amoorW 0x1 0x0 10 21 6)),
    (0b1000010_00110_10101_010_01010_0101111, (.amominW 0x1 0x0 10 21 6)),
    (0b1010010_00110_10101_010_01010_0101111, (.amomaxW 0x1 0x0 10 21 6)),
    (0b1100010_00110_10101_010_01010_0101111, (.amominuW 0x1 0x0 10 21 6)),
    (0b1110010_00110_10101_010_01010_0101111, (.amomaxuW 0x1 0x0 10 21 6))] = true := by decide

theorem test_decode_atomic_d : decodesAll .rv64 [
    (0b0001010_00000_10101_011_01010_0101111, (.lrD 0x1 0x0 10 21)),
    (0b0001110_00110_10101_011_01010_0101111, (.scD 0x1 0x0 10 21 6)),
    (0b0000110_00110_10101_011_01010_0101111, (.amoswapD 0x1 0x0 10 21 6)),
    (0b0000010_00110_10101_011_01010_0101111, (.amoaddD 0x1 0x0 10 21 6)),
    (0b0010010_00110_10101_011_01010_0101111, (.amoxorD 0x1 0x0 10 21 6)),
    (0b0110010_00110_10101_011_01010_0101111, (.amoandD 0x1 0x0 10 21 6)),
    (0b0100010_00110_10101_011_01010_0101111, (.amoorD 0x1 0x0 10 21 6)),
    (0b1000010_00110_10101_011_01010_0101111, (.amominD 0x1 0x0 10 21 6)),
    (0b1010010_00110_10101_011_01010_0101111, (.amomaxD 0x1 0x0 10 21 6)),
    (0b1100010_00110_10101_011_01010_0101111, (.amominuD 0x1 0x0 10 21 6)),
    (0b1110010_00110_10101_011_01010_0101111, (.amomaxuD 0x1 0x0 10 21 6))] = true := by decide

theorem test_decode_system : decodesAll .rv32 [
    (0b0011010_00101_10101_001_01010_1110011, (.csrrw 10 0x345 21)),
    (0b0011010_00101_10101_010_01010_1110011, (.csrrs 10 0x345 21)),
    (0b0011010_00101_10101_011_01010_1110011, (.csrrc 10 0x345 21)),
    (0b0011010_00101_10011_101_01010_1110011, (.csrrwi 10 0x345 0x13)),
    (0b0011010_00101_10011_110_01010_1110011, (.csrrsi 10 0x345 0x13)),
    (0b0011010_00101_10011_111_01010_1110011, (.csrrci 10 0x345 0x13)),
    (0b0000000_00000_00000_000_00000_1110011, .ecall),
    (0b0000000_00001_00000_000_00000_1110011, .ebreak),
    (0b0011000_00010_00000_000_00000_1110011, .mret),
    (0b0001000_00101_00000_000_00000_1110011, .wfi),
    (0b1000001_10101_10101_000_01010_0001111, (.fence 0x8 0x3 0x5 21 10)),
    (0b1101001_01110_10101_001_01010_0001111, (.fenceI 0xD2E 21 10))] = true := by decide

theorem test_decode_c_quadrant0 : decodesAll .rv64 [
    (0b000_00110101011_00, (.cAddi4spn 3 0x348)),
    (0b010_10111001011_00, (.cLw 3 6 0x68)),
    (0b011_01011011011_00, (.cLd 3 6 0xD0)),
    (0b110_10111001101_00, (.cSw 6 5 0x68)),
    (0b111_01011011101_00, (.cSd 6 5 0xD0))] = true := by decide

theorem test_decode_c_quadrant1 : decodesAll .rv64 [
    (0b000_10000010100_01, (.cNop 0x34)),
    (0b000_10101010100_01, (.cAddi 10 0x34)),
    (0b001_10101010100_01, (.cAddiw 10 0x34)),
    (0b010_10101010100_01, (.cLi 10 0x34)),
    (0b011_10001001100_01, (.cAddi16sp 0x340)),
    (0b011_10101010100_01, (.cLui 10 0x34)),
    (0b100_10001100110_01, (.cSrli 3 0x26)),
    (0b100_10101100110_01, (.cSrai 3 0x26)),
    (0b100_11001110100_01, (.cAndi 3 0x34)),
    (0b100_01101100101_01, (.cSub 3 5)),
    (0b100_01101101101_01, (.cXor 3 5)),
    (0b100_01101110101_01, (.cOr 3 5)),
    (0b100_01101111101_01, (.cAnd 3 5)),
    (0b100_11101100101_01, (.cSubw 3 5)),
    (0b100_11101101101_01, (.cAddw 3 5)),
    (0b101_10011001111_01, (.cJ 0xD2E)),
    (0b110_10011010101_01, (.cBeqz 6 0x1A4)),
    (0b111_10011010101_01, (.cBnez 6 0x1A4))] = true := by decide

theorem test_decode_c_quadrant1_rv32 : decodesAll .rv32 [
    (0b001_10011001111_01, (.cJal 0xD2E))] = true := by decide

theorem test_decode_c_quadrant2 : decodesAll .rv64 [
    (0b000_10101000110_10, (.cSlli 10 0x26)),
    (0b010_00101010011_10, (.cLwsp 10 0xD0)),
    (0b011_10101000110_10, (.cLdsp 10 0x1A0)),
    (0b100_01010100000_10, (.cJr 21)),
    (0b100_00101000110_10, (.cMv 10 6)),
    (0b100_10000000000_10, .cEbreak),
    (0b100_11010100000_10, (.cJalr 21)),
    (0b100_10101000110_10, (.cAdd 10 6)),
    (0b110_01001100110_10, (.cSwsp 6 0xD0)),
    (0b111_10011000110_10, (.cSdsp 6 0x1A0))] = true := by decide

/-- V23. -/
theorem test_lui : result 1 (exec (.lui 1 0x80000) (core2 .rv64 0x10001000 [])) = some 0xFFFFFFFF80000000 := by decide

/-- V16, at pc 0x1000_1000. -/
theorem test_auipc : result 1 (exec (.auipc 1 1) (core2 .rv32 0x10001000 [])) = some 0x10002000 := by decide

/-- V5. -/
theorem test_addi : result 1 (exec (.addi 1 0 0xFFF) (core2 .rv32 0x10001000 [])) = some 0xFFFFFFFF := by decide

/-- R186 on the operands of V6. -/
theorem test_slti : result 3 (exec (.slti 3 1 1) (core2 .rv32 0x10001000 [(1, 0xFFFFFFFF)])) = some 1 := by decide

/-- V8. -/
theorem test_sltiu : result 3 (exec (.sltiu 3 1 0xFFF) (core2 .rv32 0x10001000 [(1, 5)])) = some 1 := by decide

/-- V17. -/
theorem test_xori : result 3 (exec (.xori 3 1 0xFFF) (core2 .rv32 0x10001000 [(1, 0x0F0F0F0F)])) = some 0xF0F0F0F0 := by decide

/-- V18. -/
theorem test_ori : result 3 (exec (.ori 3 0 0x800) (core2 .rv32 0x10001000 [])) = some 0xFFFFF800 := by decide

/-- V18. -/
theorem test_andi : result 3 (exec (.andi 3 1 0x7FF) (core2 .rv32 0x10001000 [(1, 0xFFFFFFFF)])) = some 0x7FF := by decide

/-- R191. -/
theorem test_slli : result 3 (exec (.slli 3 1 63) (core2 .rv64 0x10001000 [(1, 1)])) = some 0x8000000000000000 := by decide

/-- V11 with an immediate (R192). -/
theorem test_srli : result 3 (exec (.srli 3 1 4) (core2 .rv32 0x10001000 [(1, 0x80000000)])) = some 0x08000000 := by decide

/-- V13. -/
theorem test_srai : result 3 (exec (.srai 3 1 31) (core2 .rv32 0x10001000 [(1, 0x80000000)])) = some 0xFFFFFFFF := by decide

/-- V1. -/
theorem test_add : result 3 (exec (.add 3 1 2) (core2 .rv32 0x10001000 [(1, 0x7FFFFFFF), (2, 1)])) = some 0x80000000 := by decide

/-- V4. -/
theorem test_add_same : result 1 (exec (.add 1 1 1) (core2 .rv32 0x10001000 [(1, 3)])) = some 6 := by decide

/-- V2. -/
theorem test_sub : result 3 (exec (.sub 3 1 2) (core2 .rv32 0x10001000 [(2, 1)])) = some 0xFFFFFFFF := by decide

/-- V10. -/
theorem test_sll : result 3 (exec (.sll 3 1 2) (core2 .rv32 0x10001000 [(1, 1), (2, 33)])) = some 2 := by decide

/-- V25. -/
theorem test_sll64 : result 3 (exec (.sll 3 1 2) (core2 .rv64 0x10001000 [(1, 1), (2, 65)])) = some 2 := by decide

/-- V6. -/
theorem test_slt : result 3 (exec (.slt 3 1 2) (core2 .rv32 0x10001000 [(1, 0xFFFFFFFF), (2, 1)])) = some 1 := by decide

/-- V7. -/
theorem test_sltu : result 3 (exec (.sltu 3 1 2) (core2 .rv32 0x10001000 [(1, 0xFFFFFFFF), (2, 1)])) = some 0 := by decide

/-- R199. -/
theorem test_xor : result 3 (exec (.xor 3 1 2) (core2 .rv32 0x10001000 [(1, 0xC), (2, 0xA)])) = some 6 := by decide

/-- V11. -/
theorem test_srl : result 3 (exec (.srl 3 1 2) (core2 .rv32 0x10001000 [(1, 0x80000000), (2, 4)])) = some 0x08000000 := by decide

/-- V12. -/
theorem test_sra : result 3 (exec (.sra 3 1 2) (core2 .rv32 0x10001000 [(1, 0x80000000), (2, 4)])) = some 0xF8000000 := by decide

/-- R202. -/
theorem test_or : result 3 (exec (.or 3 1 2) (core2 .rv32 0x10001000 [(1, 0xC), (2, 0xA)])) = some 0xE := by decide

/-- R203. -/
theorem test_and : result 3 (exec (.and 3 1 2) (core2 .rv32 0x10001000 [(1, 0xC), (2, 0xA)])) = some 8 := by decide

/-- V24. -/
theorem test_addiw : result 3 (exec (.addiw 3 1 0) (core2 .rv64 0x10001000 [(1, 0x0000000180000000)])) = some 0xFFFFFFFF80000000 := by decide

/-- V21. -/
theorem test_slliw : result 3 (exec (.slliw 3 1 31) (core2 .rv64 0x10001000 [(1, 1)])) = some 0xFFFFFFFF80000000 := by decide

/-- V22. -/
theorem test_srliw : result 3 (exec (.srliw 3 1 1) (core2 .rv64 0x10001000 [(1, 0x80000000)])) = some 0x40000000 := by decide

/-- V22. -/
theorem test_sraiw : result 3 (exec (.sraiw 3 1 1) (core2 .rv64 0x10001000 [(1, 0x80000000)])) = some 0xFFFFFFFFC0000000 := by decide

/-- V19. -/
theorem test_addw : result 3 (exec (.addw 3 1 2) (core2 .rv64 0x10001000 [(1, 0x7FFFFFFF), (2, 1)])) = some 0xFFFFFFFF80000000 := by decide

/-- V20. -/
theorem test_subw : result 3 (exec (.subw 3 0 2) (core2 .rv64 0x10001000 [(2, 1)])) = some 0xFFFFFFFFFFFFFFFF := by decide

/-- R210: amount 63 masked to 31. -/
theorem test_sllw : result 3 (exec (.sllw 3 1 2) (core2 .rv64 0x10001000 [(1, 1), (2, 63)])) = some 0xFFFFFFFF80000000 := by decide

/-- R211: amount 33 masked to 1, low word. -/
theorem test_srlw : result 3 (exec (.srlw 3 1 2) (core2 .rv64 0x10001000 [(1, 0xF80000000), (2, 33)])) = some 0x40000000 := by decide

/-- R212: amount 33 masked to 1. -/
theorem test_sraw : result 3 (exec (.sraw 3 1 2) (core2 .rv64 0x10001000 [(1, 0x80000000), (2, 33)])) = some 0xFFFFFFFFC0000000 := by decide

/-- V75. -/
theorem test_mul : result 3 (exec (.mul 3 1 2) (core2 .rv32 0x10001000 [(1, 0x12345678), (2, 0x9ABCDEF0)])) = some 0x242D2080 := by decide

/-- V75. -/
theorem test_mulh : result 3 (exec (.mulh 3 1 2) (core2 .rv32 0x10001000 [(1, 0x12345678), (2, 0x9ABCDEF0)])) = some 0xF8CC93D6 := by decide

/-- V74. -/
theorem test_mulhsu : result 3 (exec (.mulhsu 3 1 2) (core2 .rv32 0x10001000 [(1, 0xFFFFFFFF), (2, 0xFFFFFFFF)])) = some 0xFFFFFFFF := by decide

/-- V75. -/
theorem test_mulhu : result 3 (exec (.mulhu 3 1 2) (core2 .rv32 0x10001000 [(1, 0x12345678), (2, 0x9ABCDEF0)])) = some 0x0B00EA4E := by decide

/-- V76. -/
theorem test_div : result 3 (exec (.div 3 1 2) (core2 .rv32 0x10001000 [(1, 0xFFFFFFF9), (2, 2)])) = some 0xFFFFFFFD := by decide

/-- V79. -/
theorem test_div_overflow : result 3 (exec (.div 3 1 2) (core2 .rv32 0x10001000 [(1, 0x80000000), (2, 0xFFFFFFFF)])) = some 0x80000000 := by decide

/-- V80. -/
theorem test_divu : result 3 (exec (.divu 3 1 2) (core2 .rv32 0x10001000 [(1, 0xFFFFFFF9), (2, 2)])) = some 0x7FFFFFFC := by decide

/-- V76. -/
theorem test_rem : result 3 (exec (.rem 3 1 2) (core2 .rv32 0x10001000 [(1, 0xFFFFFFF9), (2, 2)])) = some 0xFFFFFFFF := by decide

/-- V78. -/
theorem test_rem_zero : result 3 (exec (.rem 3 1 2) (core2 .rv32 0x10001000 [(1, 5)])) = some 5 := by decide

/-- V80. -/
theorem test_remu : result 3 (exec (.remu 3 1 2) (core2 .rv32 0x10001000 [(1, 0xFFFFFFF9), (2, 2)])) = some 1 := by decide

/-- V81. -/
theorem test_mulw : result 3 (exec (.mulw 3 1 2) (core2 .rv64 0x10001000 [(1, 0x8000), (2, 0x10000)])) = some 0xFFFFFFFF80000000 := by decide

/-- V82. -/
theorem test_divw : result 3 (exec (.divw 3 1 2) (core2 .rv64 0x10001000 [(1, 0x80000000), (2, 0xFFFFFFFFFFFFFFFF)])) = some 0xFFFFFFFF80000000 := by decide

/-- V83. -/
theorem test_divuw : result 3 (exec (.divuw 3 1 2) (core2 .rv64 0x10001000 [(1, 0xFFFFFFFF)])) = some 0xFFFFFFFFFFFFFFFF := by decide

/-- V82. -/
theorem test_remw : result 3 (exec (.remw 3 1 2) (core2 .rv64 0x10001000 [(1, 0x80000000), (2, 0xFFFFFFFFFFFFFFFF)])) = some 0 := by decide

/-- V83. -/
theorem test_remuw : result 3 (exec (.remuw 3 1 2) (core2 .rv64 0x10001000 [(1, 0xFFFFFFFF)])) = some 0xFFFFFFFFFFFFFFFF := by decide

/-- V30. -/
theorem test_beq : target (exec (.beq 1 2 8) (core2 .rv32 0x100 [(1, 7), (2, 7)])) = some (some 0x108) := by decide

/-- V31. -/
theorem test_bne : target (exec (.bne 1 2 8) (core2 .rv32 0x100 [(1, 7), (2, 7)])) = some none := by decide

/-- V32. -/
theorem test_blt : target (exec (.blt 1 2 0x1FFC) (core2 .rv32 0x100 [(1, 0xFFFFFFFF)])) = some (some 0x0FC) := by decide

/-- V34. -/
theorem test_bge : target (exec (.bge 1 1 0x10) (core2 .rv32 0x100 [(1, 7)])) = some (some 0x110) := by decide

/-- V33. -/
theorem test_bltu : target (exec (.bltu 1 2 0x1FFC) (core2 .rv32 0x100 [(1, 0xFFFFFFFF)])) = some none := by decide

/-- V35. -/
theorem test_bgeu : target (exec (.bgeu 1 0 0x10) (core2 .rv32 0x100 [(1, 7)])) = some (some 0x110) := by decide

/-- V37. -/
theorem test_jal : target (exec (.jal 1 0x20) (core2 .rv32 0x100 [])) = some (some 0x120) := by decide

/-- V37. -/
theorem test_jal_link : result 1 (exec (.jal 1 0x20) (core2 .rv32 0x100 [])) = some 0x104 := by decide

/-- V39. -/
theorem test_jalr : target (exec (.jalr 1 1 4) (core2 .rv32 0x100 [(1, 0x201)])) = some (some 0x204) := by decide

/-- V39. -/
theorem test_jalr_link : result 1 (exec (.jalr 1 1 4) (core2 .rv32 0x100 [(1, 0x201)])) = some 0x104 := by decide

/-- V50. -/
theorem test_lb : result 1 (exec (.lb 1 5 0) (withBytes (core2 .rv32 0x10001000 [(5, 0x10002000)]))) = some 0xFFFFFF80 := by decide

/-- V52. -/
theorem test_lh : result 1 (exec (.lh 1 5 0) (withBytes (core2 .rv32 0x10001000 [(5, 0x10002000)]))) = some 0xFFFFFF80 := by decide

/-- V55, misaligned. -/
theorem test_lw : result 1 (exec (.lw 1 5 1) (withBytes (core2 .rv32 0x10001000 [(5, 0x10002000)]))) = some 0x781234FF := by decide

/-- V56. -/
theorem test_lw64 : result 1 (exec (.lw 1 5 4) (withBytes (core2 .rv64 0x10001000 [(5, 0x10002000)]))) = some 0xFFFFFFFF80005678 := by decide

/-- V51. -/
theorem test_lbu : result 1 (exec (.lbu 1 5 0) (withBytes (core2 .rv32 0x10001000 [(5, 0x10002000)]))) = some 0x80 := by decide

/-- V53. -/
theorem test_lhu : result 1 (exec (.lhu 1 5 2) (withBytes (core2 .rv32 0x10001000 [(5, 0x10002000)]))) = some 0x1234 := by decide

/-- V56. -/
theorem test_lwu : result 1 (exec (.lwu 1 5 4) (withBytes (core2 .rv64 0x10001000 [(5, 0x10002000)]))) = some 0x80005678 := by decide

/-- V57. -/
theorem test_ld : result 1 (exec (.ld 1 5 0) (withBytes (core2 .rv64 0x10001000 [(5, 0x10002000)]))) = some 0x800056781234FF80 := by decide

/-- V58. -/
theorem test_sb : bytesAfter (exec (.sb 5 2 1) (withBytes (core2 .rv32 0x10001000 [(5, 0x10002000), (2, 0xAABBCCDD)]))) = some [0x80, 0xDD, 0x34, 0x12, 0x78, 0x56, 0x00, 0x80] := by decide

/-- V59. -/
theorem test_sh : bytesAfter (exec (.sh 5 2 2) (withBytes (core2 .rv32 0x10001000 [(5, 0x10002000), (2, 0xAABBCCDD)]))) = some [0x80, 0xFF, 0xDD, 0xCC, 0x78, 0x56, 0x00, 0x80] := by decide

/-- R268, 20_memory.md R103, R104. -/
theorem test_sw : bytesAfter (exec (.sw 5 2 3) (withBytes (core2 .rv32 0x10001000 [(5, 0x10002000), (2, 0xAABBCCDD)]))) = some [0x80, 0xFF, 0x34, 0xDD, 0xCC, 0xBB, 0xAA, 0x80] := by decide

/-- R269. -/
theorem test_sd : bytesAfter (exec (.sd 5 2 0) (withBytes (core2 .rv64 0x10001000 [(5, 0x10002000), (2, 0xAABBCCDD)]))) = some [0xDD, 0xCC, 0xBB, 0xAA, 0, 0, 0, 0] := by decide

/-- R305 on the memory of 2.3. -/
theorem test_lrW : result 6 (exec (.lrW 0 0 6 5) (withBytes (core2 .rv32 0x10001000 [(5, 0x10002000)]))) = some 0x1234FF80 := by decide

/-- R316. -/
theorem test_lrD : result 6 (exec (.lrD 0 0 6 5) (withBytes (core2 .rv64 0x10001000 [(5, 0x10002000)]))) = some 0x800056781234FF80 := by decide

/-- V91. -/
theorem test_scW_lost : result 7 (exec (.scW 0 0 7 5 8) (core2 .rv32 0x10001000 [(5, 0x10002000), (8, 9)])) = some 1 := by decide

/-- V90. -/
theorem test_scW_held : result 7 (exec (.scW 0 0 7 5 8) ((core2 .rv32 0x10001000 [(5, 0x10002000), (7, 3), (8, 9)]).reserve (some ⟨0x10002000, 4⟩))) = some 0 := by decide

/-- R317. -/
theorem test_scD_held : bytesAfter (exec (.scD 0 0 7 5 8) ((withBytes (core2 .rv64 0x10001000 [(5, 0x10002000), (8, 9)])).reserve (some ⟨0x10002000, 8⟩))) = some [9, 0, 0, 0, 0, 0, 0, 0] := by decide

/-- R304 and its own rule, by hand. -/
theorem test_amoswapW : bytesAfter (exec (.amoswapW 0 0 6 5 8) (withBytes (core2 .rv32 0x10001000 [(5, 0x10002000), (8, 0xf00000a5)]))) = some [0xa5, 0x0, 0x0, 0xf0, 0x78, 0x56, 0x00, 0x80] := by decide

/-- R304 and its own rule, by hand. -/
theorem test_amoaddW : bytesAfter (exec (.amoaddW 0 0 6 5 8) (withBytes (core2 .rv32 0x10001000 [(5, 0x10002000), (8, 0xf00000a5)]))) = some [0x25, 0x0, 0x35, 0x2, 0x78, 0x56, 0x00, 0x80] := by decide

/-- R304 and its own rule, by hand. -/
theorem test_amoxorW : bytesAfter (exec (.amoxorW 0 0 6 5 8) (withBytes (core2 .rv32 0x10001000 [(5, 0x10002000), (8, 0xf00000a5)]))) = some [0x25, 0xff, 0x34, 0xe2, 0x78, 0x56, 0x00, 0x80] := by decide

/-- R304 and its own rule, by hand. -/
theorem test_amoandW : bytesAfter (exec (.amoandW 0 0 6 5 8) (withBytes (core2 .rv32 0x10001000 [(5, 0x10002000), (8, 0xf00000a5)]))) = some [0x80, 0x0, 0x0, 0x10, 0x78, 0x56, 0x00, 0x80] := by decide

/-- R304 and its own rule, by hand. -/
theorem test_amoorW : bytesAfter (exec (.amoorW 0 0 6 5 8) (withBytes (core2 .rv32 0x10001000 [(5, 0x10002000), (8, 0xf00000a5)]))) = some [0xa5, 0xff, 0x34, 0xf2, 0x78, 0x56, 0x00, 0x80] := by decide

/-- R304 and its own rule, by hand. -/
theorem test_amominW : bytesAfter (exec (.amominW 0 0 6 5 8) (withBytes (core2 .rv32 0x10001000 [(5, 0x10002000), (8, 0xf00000a5)]))) = some [0xa5, 0x0, 0x0, 0xf0, 0x78, 0x56, 0x00, 0x80] := by decide

/-- R304 and its own rule, by hand. -/
theorem test_amomaxW : bytesAfter (exec (.amomaxW 0 0 6 5 8) (withBytes (core2 .rv32 0x10001000 [(5, 0x10002000), (8, 0xf00000a5)]))) = some [0x80, 0xff, 0x34, 0x12, 0x78, 0x56, 0x00, 0x80] := by decide

/-- R304 and its own rule, by hand. -/
theorem test_amominuW : bytesAfter (exec (.amominuW 0 0 6 5 8) (withBytes (core2 .rv32 0x10001000 [(5, 0x10002000), (8, 0xf00000a5)]))) = some [0x80, 0xff, 0x34, 0x12, 0x78, 0x56, 0x00, 0x80] := by decide

/-- R304 and its own rule, by hand. -/
theorem test_amomaxuW : bytesAfter (exec (.amomaxuW 0 0 6 5 8) (withBytes (core2 .rv32 0x10001000 [(5, 0x10002000), (8, 0xf00000a5)]))) = some [0xa5, 0x0, 0x0, 0xf0, 0x78, 0x56, 0x00, 0x80] := by decide

/-- R304 and its own rule, by hand. -/
theorem test_amoswapD : bytesAfter (exec (.amoswapD 0 0 6 5 8) (withBytes (core2 .rv64 0x10001000 [(5, 0x10002000), (8, 0x11)]))) = some [0x11, 0x0, 0x0, 0x0, 0x0, 0x0, 0x0, 0x0] := by decide

/-- R304 and its own rule, by hand. -/
theorem test_amoaddD : bytesAfter (exec (.amoaddD 0 0 6 5 8) (withBytes (core2 .rv64 0x10001000 [(5, 0x10002000), (8, 0x11)]))) = some [0x91, 0xff, 0x34, 0x12, 0x78, 0x56, 0x0, 0x80] := by decide

/-- R304 and its own rule, by hand. -/
theorem test_amoxorD : bytesAfter (exec (.amoxorD 0 0 6 5 8) (withBytes (core2 .rv64 0x10001000 [(5, 0x10002000), (8, 0x11)]))) = some [0x91, 0xff, 0x34, 0x12, 0x78, 0x56, 0x0, 0x80] := by decide

/-- R304 and its own rule, by hand. -/
theorem test_amoandD : bytesAfter (exec (.amoandD 0 0 6 5 8) (withBytes (core2 .rv64 0x10001000 [(5, 0x10002000), (8, 0x11)]))) = some [0x0, 0x0, 0x0, 0x0, 0x0, 0x0, 0x0, 0x0] := by decide

/-- R304 and its own rule, by hand. -/
theorem test_amoorD : bytesAfter (exec (.amoorD 0 0 6 5 8) (withBytes (core2 .rv64 0x10001000 [(5, 0x10002000), (8, 0x11)]))) = some [0x91, 0xff, 0x34, 0x12, 0x78, 0x56, 0x0, 0x80] := by decide

/-- R304 and its own rule, by hand. -/
theorem test_amominD : bytesAfter (exec (.amominD 0 0 6 5 8) (withBytes (core2 .rv64 0x10001000 [(5, 0x10002000), (8, 0x11)]))) = some [0x80, 0xff, 0x34, 0x12, 0x78, 0x56, 0x0, 0x80] := by decide

/-- R304 and its own rule, by hand. -/
theorem test_amomaxD : bytesAfter (exec (.amomaxD 0 0 6 5 8) (withBytes (core2 .rv64 0x10001000 [(5, 0x10002000), (8, 0x11)]))) = some [0x11, 0x0, 0x0, 0x0, 0x0, 0x0, 0x0, 0x0] := by decide

/-- R304 and its own rule, by hand. -/
theorem test_amominuD : bytesAfter (exec (.amominuD 0 0 6 5 8) (withBytes (core2 .rv64 0x10001000 [(5, 0x10002000), (8, 0x11)]))) = some [0x11, 0x0, 0x0, 0x0, 0x0, 0x0, 0x0, 0x0] := by decide

/-- R304 and its own rule, by hand. -/
theorem test_amomaxuD : bytesAfter (exec (.amomaxuD 0 0 6 5 8) (withBytes (core2 .rv64 0x10001000 [(5, 0x10002000), (8, 0x11)]))) = some [0x80, 0xff, 0x34, 0x12, 0x78, 0x56, 0x0, 0x80] := by decide

/-- V96 on the memory of 2.3. -/
theorem test_amoswapW_same : result 8 (exec (.amoswapW 0 0 8 5 8) (withBytes (core2 .rv32 0x10001000 [(5, 0x10002000), (8, 9)]))) = some 0x1234FF80 := by decide

/-- R304, on the memory of 2.3. -/
theorem test_amoaddD_rd : result 6 (exec (.amoaddD 0 0 6 5 8) (withBytes (core2 .rv64 0x10001000 [(5, 0x10002000)]))) = some 0x800056781234FF80 := by decide

/-- V130. -/
theorem test_csrrw : csrAfter 1 0x340 (exec (.csrrw 1 0x340 2) (withCsr 0x340 5 (core2 .rv32 0x10001000 [(2, 9)]))) = some (5, 9) := by decide

/-- V132. -/
theorem test_csrrs : csrAfter 1 0x300 (exec (.csrrs 1 0x300 0) (withCsr 0x300 8 (core2 .rv32 0x10001000 []))) = some (8, 8) := by decide

/-- V133. -/
theorem test_csrrc : csrAfter 1 0x300 (exec (.csrrc 1 0x300 2) (withCsr 0x300 0x88 (core2 .rv32 0x10001000 [(2, 8)]))) = some (0x88, 0x80) := by decide

/-- V135. -/
theorem test_csrrwi : csrAfter 1 0x341 (exec (.csrrwi 1 0x341 0) (withCsr 0x341 0x40 (core2 .rv32 0x10001000 []))) = some (0x40, 0) := by decide

/-- V134. -/
theorem test_csrrsi : csrAfter 0 0x300 (exec (.csrrsi 0 0x300 8) (withCsr 0x300 0 (core2 .rv32 0x10001000 []))) = some (0, 8) := by decide

/-- V134. -/
theorem test_csrrci : csrAfter 0 0x300 (exec (.csrrci 0 0x300 8) (withCsr 0x300 8 (core2 .rv32 0x10001000 []))) = some (0, 0) := by decide

/-- 10_state.md R42: plain storage. -/
theorem test_csr_plain : csrAfter 0 0x7C0 (exec (.csrrw 0 0x7C0 2) (withCsr 0x7C1 5 (core2 .rv32 0x10001000 [(2, 9)]))) = some (0, 9) := by decide

/-- V138. -/
theorem test_ecall_stop : stopOf (exec .ecall (core2 .rv32 0x10001000 [(17, 1), (10, 0xFFFFFFFF)])) = some (some (.stopped 0xFFFFFFFF)) := by decide

/-- R398 on the memory of 2.3. -/
theorem test_ecall_write : traceOf (exec .ecall (withBytes (core2 .rv32 0x10001000 [(17, 64), (10, 1), (11, 0x10002002), (12, 3)]))) = some [0x34, 0x12, 0x78] := by decide

/-- V143. -/
theorem test_ebreak : stopOf (exec .ebreak (core2 .rv32 0x10001000 [])) = some (some .halted) := by decide

/-- V144. -/
theorem test_mret : csrAfter 0 0x300 (exec .mret (withCsr 0x341 0x109 (core2 .rv32 0x10001000 []))) = some (0, 8) := by decide

/-- V144. -/
theorem test_mret_target : target (exec .mret (withCsr 0x341 0x109 (core2 .rv32 0x10001000 []))) = some (some 0x108) := by decide

/-- V145. -/
theorem test_nops : [exec .wfi State.reset, exec (.fence 0 0xF 0xF 0 0) State.reset, exec (.fenceI 0 0 0) State.reset].all
    (fun r => decide (observe id r = some State.reset)) = true := by decide

/-- V100. -/
theorem test_cAddi4spn : result 8 (exec (.cAddi4spn 0 4) (core2 .rv32 0x10001000 [(2, 0x100)])) = some 0x104 := by decide

/-- V101. -/
theorem test_cLw : result 9 (exec (.cLw 1 0 0) (withBytes (core2 .rv32 0x10001000 [(8, 0x10002000)]))) = some 0x1234FF80 := by decide

/-- R335. -/
theorem test_cLd : result 9 (exec (.cLd 1 0 0) (withBytes (core2 .rv64 0x10001000 [(8, 0x10002000)]))) = some 0x800056781234FF80 := by decide

/-- V102. -/
theorem test_cSw : bytesAfter (exec (.cSw 0 1 0) (withBytes (core2 .rv32 0x10001000 [(8, 0x10002000), (9, 0xAABBCCDD)]))) = some [0xDD, 0xCC, 0xBB, 0xAA, 0x78, 0x56, 0x00, 0x80] := by decide

/-- R337. -/
theorem test_cSd : bytesAfter (exec (.cSd 0 1 0) (withBytes (core2 .rv64 0x10001000 [(8, 0x10002000), (9, 0xAABBCCDD)]))) = some [0xDD, 0xCC, 0xBB, 0xAA, 0, 0, 0, 0] := by decide

/-- V103. -/
theorem test_cNop : observe id (exec (.cNop 0) State.reset) = some State.reset := by decide

/-- V104. -/
theorem test_cAddi : result 1 (exec (.cAddi 1 1) (core2 .rv32 0x10001000 [(1, 0xFFFFFFFF)])) = some 0 := by decide

/-- 1.3. -/
theorem test_cJal : target (exec (.cJal 0x20) (core2 .rv32 0x100 [])) = some (some 0x120) := by decide

/-- 1.3. -/
theorem test_cJal_link : result 1 (exec (.cJal 0x20) (core2 .rv32 0x100 [])) = some 0x102 := by decide

/-- V106. -/
theorem test_cAddiw : result 1 (exec (.cAddiw 1 1) (core2 .rv64 0x10001000 [(1, 0x7FFFFFFF)])) = some 0xFFFFFFFF80000000 := by decide

/-- V107. -/
theorem test_cLi : result 10 (exec (.cLi 10 0x3F) (core2 .rv32 0x10001000 [])) = some 0xFFFFFFFF := by decide

/-- V108. -/
theorem test_cAddi16sp : result 2 (exec (.cAddi16sp 0x200) (core2 .rv32 0x10001000 [(2, 0x1000)])) = some 0xE00 := by decide

/-- V109. -/
theorem test_cLui : result 5 (exec (.cLui 5 1) (core2 .rv32 0x10001000 [])) = some 0x1000 := by decide

/-- V110. -/
theorem test_cSrli : result 8 (exec (.cSrli 0 1) (core2 .rv32 0x10001000 [(8, 0x80000000)])) = some 0x40000000 := by decide

/-- V110. -/
theorem test_cSrai : result 8 (exec (.cSrai 0 1) (core2 .rv32 0x10001000 [(8, 0x80000000)])) = some 0xC0000000 := by decide

/-- V111. -/
theorem test_cAndi : result 8 (exec (.cAndi 0 31) (core2 .rv32 0x10001000 [(8, 0xFFFFFFFF)])) = some 31 := by decide

/-- V112. -/
theorem test_cSub : result 8 (exec (.cSub 0 1) (core2 .rv32 0x10001000 [(8, 0xC), (9, 0xA)])) = some 2 := by decide

/-- V112. -/
theorem test_cXor : result 8 (exec (.cXor 0 1) (core2 .rv32 0x10001000 [(8, 0xC), (9, 0xA)])) = some 6 := by decide

/-- V112. -/
theorem test_cOr : result 8 (exec (.cOr 0 1) (core2 .rv32 0x10001000 [(8, 0xC), (9, 0xA)])) = some 0xE := by decide

/-- V112. -/
theorem test_cAnd : result 8 (exec (.cAnd 0 1) (core2 .rv32 0x10001000 [(8, 0xC), (9, 0xA)])) = some 8 := by decide

/-- R352. -/
theorem test_cSubw : result 8 (exec (.cSubw 0 1) (core2 .rv64 0x10001000 [(9, 1)])) = some 0xFFFFFFFFFFFFFFFF := by decide

/-- R353. -/
theorem test_cAddw : result 8 (exec (.cAddw 0 1) (core2 .rv64 0x10001000 [(8, 0x7FFFFFFF), (9, 1)])) = some 0xFFFFFFFF80000000 := by decide

/-- V113. -/
theorem test_cJ : target (exec (.cJ 4) (core2 .rv32 0x100 [])) = some (some 0x104) := by decide

/-- V114. -/
theorem test_cBeqz : target (exec (.cBeqz 0 4) (core2 .rv32 0x100 [])) = some (some 0x104) := by decide

/-- V114. -/
theorem test_cBnez : target (exec (.cBnez 0 4) (core2 .rv32 0x100 [])) = some none := by decide

/-- V115. -/
theorem test_cSlli : result 1 (exec (.cSlli 1 1) (core2 .rv32 0x10001000 [(1, 0x80000001)])) = some 2 := by decide

/-- V116 at offset 4. -/
theorem test_cLwsp : result 1 (exec (.cLwsp 1 4) (withBytes (core2 .rv32 0x10001000 [(2, 0x10002000)]))) = some 0x80005678 := by decide

/-- R359. -/
theorem test_cLdsp : result 1 (exec (.cLdsp 1 0) (withBytes (core2 .rv64 0x10001000 [(2, 0x10002000)]))) = some 0x800056781234FF80 := by decide

/-- V117. -/
theorem test_cJr : target (exec (.cJr 1) (core2 .rv32 0x100 [(1, 0x10D)])) = some (some 0x10C) := by decide

/-- V118. -/
theorem test_cMv : result 10 (exec (.cMv 10 11) (core2 .rv32 0x10001000 [(11, 7)])) = some 7 := by decide

/-- V121. -/
theorem test_cEbreak : stopOf (exec .cEbreak (core2 .rv32 0x10001000 [])) = some (some .halted) := by decide

/-- V119. -/
theorem test_cJalr : target (exec (.cJalr 5) (core2 .rv32 0x100 [(5, 0x200)])) = some (some 0x200) := by decide

/-- V119. -/
theorem test_cJalr_link : result 1 (exec (.cJalr 5) (core2 .rv32 0x100 [(5, 0x200)])) = some 0x102 := by decide

/-- V120. -/
theorem test_cAdd : result 10 (exec (.cAdd 10 11) (core2 .rv32 0x10001000 [(10, 2), (11, 7)])) = some 9 := by decide

/-- V122 at offset 4. -/
theorem test_cSwsp : bytesAfter (exec (.cSwsp 1 4) (withBytes (core2 .rv32 0x10001000 [(2, 0x10002000), (1, 0xAABBCCDD)]))) = some [0x80, 0xFF, 0x34, 0x12, 0xDD, 0xCC, 0xBB, 0xAA] := by decide

/-- V122. -/
theorem test_cSdsp : bytesAfter (exec (.cSdsp 1 0) (withBytes (core2 .rv64 0x10001000 [(2, 0x10002000), (1, 0xAABBCCDD)]))) = some [0xDD, 0xCC, 0xBB, 0xAA, 0, 0, 0, 0] := by decide

/-! ### Well-formedness refuses an ill-formed term for each of its checks -/

theorem test_wf_xlen : (Instr.wf .rv32 (.ld 1 2 0) || Instr.wf .rv64 (.cJal 0)) = false := by decide
theorem test_wf_odd_offset : ([Instr.jal 1 3, .beq 1 2 5, .bne 1 2 5, .blt 1 2 5, .bge 1 2 5, .bltu 1 2 5, .bgeu 1 2 5,
    .cJ 3, .cJal 3, .cBeqz 1 3, .cBnez 1 3].any (Instr.wf .rv32)) = false := by decide
theorem test_wf_shamt : ([Instr.slli 1 2 32, .srli 1 2 32, .srai 1 2 32, .cSrli 1 32, .cSrai 1 32, .cSlli 1 32].any
    (Instr.wf .rv32)) = false := by decide
theorem test_wf_uimm : ([Instr.cAddi4spn 1 2, .cAddi4spn 1 0, .cLw 1 2 2, .cLd 1 2 4, .cSw 1 2 2, .cSd 1 2 4, .cLwsp 1 2,
    .cLdsp 1 4, .cSwsp 1 2, .cSdsp 1 4, .cAddi16sp 8, .cAddi16sp 0].any (Instr.wf .rv64)) = false := by decide
theorem test_wf_register : ([Instr.cAddi 0 1, .cAddiw 0 1, .cLui 2 1, .cLui 1 0, .cLwsp 0 0, .cLdsp 0 0, .cJr 0, .cMv 1 0,
    .cJalr 0, .cAdd 1 0].any (Instr.wf .rv64)) = false := by decide

/-! ### Words of no row (V14, V26, V123, V147; R332) -/

theorem test_unknown : ([0x02009093, 0x002081BB, 0x10200073, 0xFFFFFFFF].all
    fun w => decide ((decode .rv32 w).toOption = none) && !isCompressedWord w) = true := by decide
theorem test_unknown_compressed : ([0x0000, 0x6101 &&& 0xEF83, 0x6081, 0x8002, 0x4002, 0x2000, 0x9C01, 0xA000].all
    fun w => decide ((decode .rv32 w).toOption = none)) = true := by decide

/-! ### Whole steps -/

/-- The state of a result that is one. -/
def nextOf : Result → State
  | .next t => t
  | _ => State.reset

def isNext : Result → Bool
  | .next _ => true
  | _ => false

theorem eq_nextOf {r : Result} (h : isNext r = true) : r = .next (nextOf r) := by cases r <;> first | rfl | cases h

/-- The 6-stage machine after reset. -/
def six (xl : XLen) : State := State.powerOn { defaultConfig with xlen := xl, pipe := .sixStage } (Vector.replicate 32 0) [] []

/-- The 6-stage machine with an instruction at `pc` in EX. -/
def core6 (op : Instr) (pc v1 v2 : Word) : State :=
  let s := six .rv32
  { s with six := { s.six with
      reg := { s.six.reg with l4 := ⟨true, pc, some op, 1, v1, v2, 0⟩ }
      rob := s.six.rob.set 0 ⟨true, false, 1, 0, Instr.isStore op, false, none, pc⟩
      tail := 1, count := 1 } }

/-- P1's first instruction, `addi x17, x0, 93`, as the first of a run, in both pipelines. -/
theorem test_step_two : result 17 (step (State.reset.withFetchWord 32 0x05D00893)) = some 93 := by decide
theorem test_step_six :
    observe (fun t => ((t.robAt 0).result, (t.robAt 0).ready)) (step ((six .rv32).withFetchWord 32 0x05D00893)) =
      some (93, true) := by decide
/-- A compressed word runs in the 2-stage pipeline and is refused in the 6-stage pipeline (V107, V124). -/
theorem test_step_compressed : result 10 (step (State.reset.withFetchWord 16 0x557D)) = some 0xFFFFFFFF := by decide
theorem test_step_compressed_six : isNext (step ((six .rv32).withFetchWord 16 0x557D)) = false := by decide
/-- A word of RV64 only switches the width (V19's word). -/
theorem test_step_rv64 : observe (·.cfg.xlen) (step (State.reset.withFetchWord 32 0x002081BB)) = some .rv64 := by decide
/-- EBREAK ends the run, counted as retired, and no step follows (V143, R415). -/
theorem test_step_halt :
    observe (fun t => (t.outcome, t.stats.retired)) (step (State.reset.withFetchWord 32 0x00100073)) =
      some (some .halted, 1) := by decide
/-- A cycle right after reset executes nothing and fetches the first word (R486, R494). -/
theorem test_first_cycle :
    observe (fun t => (t.stats.retired, t.stats.cycles, t.two.latchNext.valid, t.two.pc)) (step State.reset) =
      some (0, 1, true, 0x10001002) := by decide
theorem test_reset_memory : State.reset.mem.wf = true := by decide
/-- A taken branch through EX and IF (V30, R489). -/
theorem test_taken_branch :
    observe (fun t => (t.two.pc, t.two.latchNext.valid, t.stats.flushes)) (step (State.reset.withFetchWord 32 0x00000263)) =
      some (0x10001004, false, 1) := by decide

/-- `sw x6, 0(x5)` at 0x1000_1000 over the word after it, which holds 0x00100093. -/
def storeOverNext (old : Bool) : State :=
  let s := core2 .rv32 0x10001000 [(5, 0x10001004), (6, 0x00700093)]
  { s with
    cfg := { s.cfg with oldWordAfterStore := old }
    mem := s.mem.writeBytes .rv32 0x10001004 (leBytes 4 0x00100093)
    two := ⟨0x10001004, .bubble, ⟨true, 0x10001000, 0x0062A023⟩, false⟩ }
/-- IF of the store's cycle fetches the new word (R486, R123). -/
theorem test_store_next_word_new : observe (·.two.latchNext.word) (twoStages (storeOverNext false)) = some 0x00700093 := by
  decide
/-- With the parameter of entry 23 it passes on the old word (V186), and memory holds the new one. -/
theorem test_store_next_word_old :
    observe (fun t => (t.two.latchNext.word, leValue (t.mem.readBytes .rv32 0x10001004 4)))
      (twoStages (storeOverNext true)) = some (0x00100093, 0x00700093) := by decide

theorem witness_TheWordFetchedBehindAStore :
    let s := storeOverNext true
    let t := nextOf (exec (.sw 5 6 0) (twoAdvance s))
    s.two.latchNext.valid = true ∧ (decode s.cfg.xlen s.two.latchNext.word).toOption = some (.sw 5 6 0) ∧
    exec (.sw 5 6 0) (twoAdvance s) = .next t ∧ t.cfg = s.cfg ∧ t.outcome = none ∧ t.ex = ExecResult.none ∧
    t.two.flush = false ∧ t.dma.inFlight = false ∧ isDeviceAddr s.cfg t.two.pc = false ∧
    inMainMemory s.cfg t.two.pc 4 = true :=
  ⟨by decide, by decide, eq_nextOf (by decide), by decide, by decide, by decide, by decide, by decide, by decide, by decide⟩

/-- The imm field: shamt of `srai x1, x1, 4` and of C.SRAI, and 0 of C.EBREAK (R143, R330; entry 12). -/
theorem test_record_imm : ([0x4040D093, 0x8491, 0x9002].map fun w => (decodeRecord .rv32 w 0).imm) = [4, 4, 0] := by decide

/-! ### Memory system and devices (2.8 of the test vectors) -/

def word4 : Access Word → Option Word
  | .ok v _ => some v
  | .stopped _ => none
def after : Access Word → State
  | .ok _ s => s
  | .stopped r => nextOf r

theorem test_tohost_zero : (after (memWrite 0x80001000 4 0 State.reset)).outcome = none := by decide
theorem test_tohost_stop : (after (memWrite 0x80001000 4 0x2A State.reset)).outcome = some (.stopped 0x2A) := by decide
theorem test_timer : (after (memWrite 0x02004000 4 0x10 (after (memWrite 0x02004004 4 0 State.reset)))).timer.mtimecmp =
    0x10 := by decide
theorem test_timer_short : word4 (memRead 0x0200BFF8 2 State.reset) = none := by decide
def plic5 (threshold : BitVec 32) : State :=
  { State.reset with plic := ⟨[0, 0, 0, 2, 0, 2], setSourceWord 6 (Vector.replicate 32 0) 0 0x28, setSourceWord 6 (Vector.replicate 32 0) 0 0x28, threshold, 0⟩, cfg := { defaultConfig with plicNsrc := 6 } }
theorem test_plic_claim : (word4 (memRead 0x0C200004 4 (plic5 1)), sourceWord (after (memRead 0x0C200004 4 (plic5 1))).plic.pending 0) =
    (some 3, 0x20) := by decide
theorem test_plic_threshold : word4 (memRead 0x0C200004 4 (plic5 2)) = some 0 := by decide
theorem test_plic_complete : sourceWord (after (memWrite 0x0C200004 4 5 (plic5 1))).plic.pending 0 = 8 := by decide
theorem test_uart : (after (memWrite 0x10000000 4 0xAABBCCDD State.reset)).uart = [0xDD] := by decide
/-- V159, with the bytes of table 2.3: after the start and two steps the destination holds the source. -/
def dmaStarted (src dst len : Word) : State :=
  after (memWrite 0x3000000C 4 1 (after (memWrite 0x30000008 4 len (after (memWrite 0x30000004 4 dst
    (after (memWrite 0x30000000 4 src (withBytes State.reset))))))))
theorem test_dma : observe (fun t => (t.mem.readBytes .rv32 0x10002100 8, t.dma.inFlight))
    (dmaStep (nextOf (dmaStep (dmaStarted 0x10002000 0x10002100 8)))) =
      some ([0x80, 0xFF, 0x34, 0x12, 0x78, 0x56, 0x00, 0x80], false) := by decide
theorem test_dma_device : isNext (dmaStep (nextOf (dmaStep (dmaStarted 0x10002000 0x10000000 8)))) = false := by decide
theorem test_irq_cause : (irqCauseValue defaultConfig, irqCauseValue { defaultConfig with xlen := .rv64 }) =
    (0x8000000B, 0x800000000000000B) := by decide

/-- A HEX image: a data record and the end record (R472). -/
theorem test_image : ((loadImage defaultConfig ":020000041000EA\n:0410000093007000E9\n:00000001FF\n").map
    fun st => (st.mem.readBytes .rv32 0x10001000 4, (st.config defaultConfig).dmiEnabled)) =
      some ([0x93, 0x00, 0x70, 0x00], false) := by decide
/-- An image without data placed by a record 02 or 04 leaves DMI as configured (R91). -/
theorem test_image_dmi : ((loadImage defaultConfig ":00000001FF\n").map fun st => (st.config defaultConfig).dmiEnabled) =
    some true := by decide

/-! ### Witnesses: a state and operands that meet the hypotheses of each statement -/

/-- Both pipelines, and an instruction waiting in EX. -/
theorem atEx_two (xl : XLen) (pc : Word) : AtEx (core2 xl pc []) := fun h => by cases h
theorem atEx_six : AtEx (core6 .mret 0x10001000 0 0) := fun _ => by decide

theorem mainMemory_of {cfg : Config} {a : Word} {n : Nat} (h : (targetAt a = none && inMainMemory cfg a n) = true) :
    MainMemory cfg a n := by simpa [MainMemory] using h

theorem witness_DecodeOfEncode : Instr.wf .rv32 (.jal 1 0x1FFFFE) = true ∧ Instr.wf .rv64 (.cAddi16sp 0x3F0) = true ∧
    Instr.wf .rv64 (.slli 31 31 63) = true := by decide

theorem witness_EncodeOfDecode : (decode .rv32 0xFFFFFFEF).toOption = some (.jal 31 0x1FFFFE) ∧
    (decode .rv32 0xFFFF557D).toOption = some (.cLi 10 0x3F) := by decide

/-- The boundary before a step that runs `addi x17, x0, 93`. -/
def stepState : State := State.reset.withFetchWord 32 0x05D00893

theorem witness_TwoStageStepRunsTheDecodedInstruction :
    let b := nextOf (boundary stepState)
    stepState.cfg.pipe = .twoStage ∧ stepState.outcome = none ∧ boundary stepState = .next b ∧ b.outcome = none ∧
    b.cfg = stepState.cfg ∧ (poll b).irq.stall = 0 ∧ (poll b).two.latchNext.valid = true ∧
    (decode stepState.cfg.xlen (poll b).two.latchNext.word).toOption = some (.addi 17 0 93) :=
  ⟨by decide, by decide, eq_nextOf (by decide), by decide, by decide, by decide, by decide, by decide⟩

def stepSix : State := (six .rv32).withFetchWord 32 0x05D00893

theorem witness_SixStageStepRunsTheIssuedInstruction :
    let b := nextOf (boundary stepSix)
    let c := nextOf (commit (poll b))
    stepSix.cfg.pipe = .sixStage ∧ stepSix.outcome = none ∧ boundary stepSix = .next b ∧ b.outcome = none ∧
    b.cfg = stepSix.cfg ∧ (poll b).irq.stall = 0 ∧ commit (poll b) = .next c ∧ c.outcome = none ∧
    c.six.reg.l4.valid = true ∧ c.six.reg.l4.op = some (.addi 17 0 93) ∧ Instr.isCompressed (.addi 17 0 93) = false :=
  ⟨by decide, by decide, eq_nextOf (by decide), by decide, by decide, by decide, eq_nextOf (by decide), by decide, by decide,
    by decide, by decide⟩

def unknownInEx : State := { core2 .rv32 0x10001000 [] with two := ⟨0x10001004, ⟨true, 0x10001000, 0x02009093⟩, .bubble, false⟩ }
def unknownInSix : State :=
  { six .rv32 with six := { (six .rv32).six with reg := { SixLatches.bubbles with l4 := ⟨true, 0, none, 0, 0, 0, 0⟩ } } }

theorem witness_UnknownWordsExecuteAsNops :
    (unknownInEx.two.latch.valid = true ∧ (decode unknownInEx.cfg.xlen unknownInEx.two.latch.word).toOption = none ∧
      unknownInEx.ex = ExecResult.none) ∧
    (unknownInSix.six.reg.l4.valid = true ∧ unknownInSix.six.reg.l4.op = none ∧ unknownInSix.ex = ExecResult.none ∧
      unknownInSix.outcome = none) := by decide

def lateMachine : State := { State.reset with irq := ⟨true, 2, false⟩, csr := { CsrFile.reset with mip := 0x800 } }
def hostStops : State := { State.reset with schedule := [[.hostStop, .tick], []] }

theorem witness_StepsWithoutStageWork :
    ({ State.reset with outcome := some .halted }.outcome = some .halted) ∧
    (hostStops.outcome = none ∧ hostStops.schedule = (.hostStop :: [.tick]) :: [[]]) ∧
    (let s := { lateMachine with timer := ⟨5, 0, 0⟩ };
      s.outcome = none ∧ boundary s = .next (nextOf (boundary s)) ∧ (nextOf (boundary s)).outcome = none ∧
      0 < (poll (nextOf (boundary s))).irq.stall) :=
  ⟨rfl, by decide, by decide, eq_nextOf (by decide), by decide, by decide⟩

theorem csr_get_reset (a : CsrAddr) : CsrFile.reset.get a = 0 := by
  unfold CsrFile.get
  cases csrName a with
  | none => rfl
  | some n => cases n <;> rfl

theorem fits_zero (xl : XLen) : xl.Fits 0 := by cases xl <;> decide

/-- The 6-stage RV64 machine after reset meets the invariant, and a step of it goes on. -/
theorem witness_EveryStepKeepsTheInvariant : Inv (six .rv64) ∧ isNext (step (six .rv64)) = true := by
  refine ⟨⟨⟨by decide, by decide⟩, ?_, ?_, ⟨fun r => ?_, fun a => ?_, ?_⟩, ⟨by decide, by decide⟩, fun _ => by decide⟩, by decide⟩
  · exact ⟨rfl, rfl, rfl, rfl, ⟨rfl, rfl, rfl, rfl⟩, ⟨rfl, rfl, rfl, rfl⟩, fun t h => (by cases h)⟩
  · exact ⟨fun i h => (by cases h), fun i h => (by cases h), fun i h => (by cases h), fun i h => (by cases h)⟩
  · revert r; decide
  · show XLen.Fits .rv64 (CsrFile.reset.get a)
    rw [csr_get_reset]; exact fits_zero _
  · exact ⟨by decide, by decide, by decide, by decide, ⟨by decide, by decide, by decide, by decide⟩,
      ⟨by decide, by decide, by decide, by decide⟩, fun t h => by cases h⟩

theorem robAt_six (j : Nat) : ((six .rv32).robAt j) = RobEntry.empty := by
  simp only [State.robAt, six, State.powerOn, List.getD_eq_getElem?_getD, List.getElem?_replicate]
  split <;> rfl

theorem witness_SixStageStepsKeepTheLockstep : Lockstep (six .rv32) ∧
    observe (·.outcome) (step (six .rv32)) = some none := by
  refine ⟨⟨rfl, by decide, rfl, rfl, false, ⟨by decide, by decide, by decide, by decide, fun h => (by cases h),
    fun h => (by cases h), fun j _ => ?_, rfl⟩⟩, by decide⟩
  rw [robAt_six]; rfl

/-- With the first instruction in EX the ROB holds one entry, and the step goes on. -/
theorem witness_AnExecutedInstructionWaitsAtTheRobHead : Lockstep stepSix ∧
    boundary stepSix = .next (nextOf (boundary stepSix)) ∧ (poll (nextOf (boundary stepSix))).irq.stall = 0 ∧
    stepSix.six.reg.l4.valid = true ∧ observe (·.outcome) (step stepSix) = some none := by
  refine ⟨⟨rfl, by decide, rfl, rfl, false, ⟨by decide, by decide, by decide, by decide, fun h => (by cases h),
    fun _ => by decide, fun j hj => ?_, (show stepSix.six.sb = [] by decide)⟩⟩, eq_nextOf (by decide), by decide, by decide, by decide⟩
  have h0 : j ≠ 0 := hj 0 (by decide)
  have hr : stepSix.six.rob = (six .rv32).six.rob.set 0 (stepSix.six.rob.getD 0 .empty) := by decide
  have h : stepSix.robAt j = (six .rv32).robAt j := by
    unfold State.robAt
    rw [hr, List.getD_eq_getElem?_getD, List.getElem?_set_ne h0.symm, ← List.getD_eq_getElem?_getD]
  rw [h, robAt_six]; rfl

theorem witness_ShiftsCompute : AtEx (core2 .rv32 0 []) ∧ (31 : BitVec 6).toNat < (core2 .rv32 0 []).cfg.xlen.bits ∧
    AtEx (core2 .rv64 0 []) ∧ (63 : BitVec 6).toNat < (core2 .rv64 0 []).cfg.xlen.bits ∧ AtEx (core6 .mret 0 0 0) :=
  ⟨atEx_two _ _, by decide, atEx_two _ _, by decide, fun _ => by decide⟩

/-- `AtEx` and XLEN = 64, for the word statements. -/
theorem witness_WordInstructionsCompute : AtEx (core2 .rv64 0 []) ∧ (core2 .rv64 0 []).cfg.xlen = .rv64 :=
  ⟨atEx_two _ _, rfl⟩

def taken : State := { core2 .rv32 0x100 [] with two := ⟨0x104, ⟨true, 0x100, 0x00000263⟩, .bubble, false⟩ }

theorem witness_TransfersRedirectTheFetch :
    (let t := nextOf (executeWord taken.two.latch.word taken);
      t.ex.target = some 0x104 ∧ t.ex.stop = none ∧ t.outcome = none ∧ taken.two.latch.valid = true ∧
      executeWord taken.two.latch.word taken = .next t) ∧
    ({ six .rv32 with ex := ⟨some 0x100, false, none⟩ }.ex.target.isSome = true) ∧
    ({ six .rv32 with ex := ⟨none, true, some .halted⟩ }.ex.stop.isSome = true) :=
  ⟨⟨by decide, by decide, by decide, by decide, eq_nextOf (by decide)⟩, rfl, rfl⟩

def fetchOk : FetchReply → Option (BitVec 32)
  | .ok w _ => some w
  | .stopped _ => none

theorem eq_fetchOk {r : FetchReply} (h : (fetchOk r).isSome = true) : ∃ w u, r = .ok w u := by
  cases r with
  | ok w u => exact ⟨w, u, rfl⟩
  | stopped r => cases h

def transferring : State := { State.reset with dma := ⟨0, 0, 8, 1, true, 0, 0, 8, none⟩ }
def transferringSix : State := { six .rv32 with dma := ⟨0, 0, 8, 1, true, 0, 0, 8, none⟩ }

/-- A word waits at IS: it may issue, or it waits for x1, which the instruction in EX writes. -/
def waiting (w : BitVec 32) (s : State) : State :=
  { s with six := { s.six with reg := { s.six.reg with l3 := ⟨true, decodeRecord .rv32 w 0x10001004⟩ } } }

/-- The 6-stage front end with words in L1 and L2, and the same with IS waiting for x1. -/
def fetching : State :=
  { six .rv32 with six := { (six .rv32).six with
      reg := { SixLatches.bubbles with l1 := ⟨true, 0x10001004⟩, l2 := ⟨true, 0x10001000, 0x00700093⟩ } } }

theorem witness_FetchAdvancesOrStalls :
    (State.reset.two.flush = false ∧ State.reset.dma.inFlight = false ∧
      ∃ w u, fetch State.reset.two.pc State.reset = .ok w u) ∧
    (transferring.dma.inFlight = true ∧ transferring.two.flush = false) ∧
    (transferringSix.dma.inFlight = true ∧ transferringSix.ex = ExecResult.none ∧ (sixIs transferringSix).2 = false) ∧
    (fetching.ex = ExecResult.none ∧ fetching.dma.inFlight = false ∧ (sixIs fetching).2 = false ∧
      fetching.six.reg.l1.valid = true ∧ ∃ w u, fetch fetching.six.reg.l1.pc fetching = .ok w u) ∧
    ((six .rv32).dma.inFlight = false ∧ (sixIs (six .rv32)).2 = false ∧ (six .rv32).six.reg.l1.valid = false) ∧
    (let s := waiting 0x00308113 (core6 (.addi 1 0 5) 0x10001000 0 0);
      s.ex = ExecResult.none ∧ (sixIs s).2 = true) :=
  ⟨⟨rfl, rfl, eq_fetchOk (by decide)⟩, by decide, by decide, ⟨rfl, rfl, by decide, rfl, eq_fetchOk (by decide)⟩, by decide,
    by decide⟩

/-- Loads and stores at the last bytes of the window [0x1000_1000, 0x2000_0000), each clause of its width. -/
def edge (a : Word) : State := core2 .rv64 0x10001000 [(5, a)]

theorem witness_LoadsReadMainMemory :
    MainMemory (edge 0x1FFFFFFF).cfg ((edge 0x1FFFFFFF).ea 5 0) 1 ∧ MainMemory (edge 0x1FFFFFFE).cfg ((edge 0x1FFFFFFE).ea 5 0) 2 ∧
    MainMemory (edge 0x1FFFFFFC).cfg ((edge 0x1FFFFFFC).ea 5 0) 4 ∧ MainMemory (edge 0x1FFFFFF8).cfg ((edge 0x1FFFFFF8).ea 5 0) 8 ∧
    AtEx (edge 0x1FFFFFFF) :=
  ⟨mainMemory_of (by decide), mainMemory_of (by decide), mainMemory_of (by decide), mainMemory_of (by decide),
    fun h => by cases h⟩

theorem witness_StoresWriteMainMemory :
    (edge 0x1FFFFFF8).mem.wf = true ∧ (edge 0x1FFFFFF8).ea 5 0 ≠ (edge 0x1FFFFFF8).cfg.tohostAddr ∧
    MainMemory (edge 0x1FFFFFF8).cfg ((edge 0x1FFFFFF8).ea 5 0) 1 ∧ MainMemory (edge 0x1FFFFFF8).cfg ((edge 0x1FFFFFF8).ea 5 0) 2 ∧
    MainMemory (edge 0x1FFFFFF8).cfg ((edge 0x1FFFFFF8).ea 5 0) 4 ∧ MainMemory (edge 0x1FFFFFF8).cfg ((edge 0x1FFFFFF8).ea 5 0) 8 :=
  ⟨by decide, by decide, mainMemory_of (by decide), mainMemory_of (by decide), mainMemory_of (by decide),
    mainMemory_of (by decide)⟩

def storeAtHead : State :=
  { six .rv32 with six := { (six .rv32).six with
      rob := (six .rv32).six.rob.set 0 ⟨true, true, 0, 0, true, false, none, 0⟩
      tail := 1, count := 1, sb := [⟨true, 0x1FFFFFFC, 5, 4, 0⟩] } }
/-- An AMO at the head: a store with a destination register. -/
def amoAtHead : State := storeAtHead.setRob 0 ⟨true, true, 3, 7, true, false, none, 0⟩
def resultAtHead : State :=
  { six .rv32 with six := { (six .rv32).six with
      rob := (six .rv32).six.rob.set 0 ⟨true, true, 3, 7, false, false, none, 0⟩, tail := 1, count := 1 } }

theorem witness_CommitRetiresTheHead :
    (storeAtHead.six.count > 0 ∧ (storeAtHead.robAt storeAtHead.six.head).ready = true ∧
      (storeAtHead.robAt storeAtHead.six.head).exception = none ∧ (storeAtHead.robAt storeAtHead.six.head).isStore = true ∧
      storeAtHead.six.sb = ⟨true, 0x1FFFFFFC, 5, 4, 0⟩ :: [] ∧
      MainMemory storeAtHead.cfg 0x1FFFFFFC 4 ∧ 0x1FFFFFFC ≠ storeAtHead.cfg.tohostAddr ∧ storeAtHead.mem.wf = true) ∧
    (resultAtHead.six.count > 0 ∧ (resultAtHead.robAt resultAtHead.six.head).ready = true ∧
      (resultAtHead.robAt resultAtHead.six.head).exception = none ∧
      (resultAtHead.robAt resultAtHead.six.head).isStore = false) ∧
    ((amoAtHead.robAt amoAtHead.six.head).ready = true ∧ (amoAtHead.robAt amoAtHead.six.head).exception = none ∧
      (amoAtHead.robAt amoAtHead.six.head).isStore = true ∧ (amoAtHead.robAt amoAtHead.six.head).destReg = 3) :=
  ⟨⟨by decide, by decide, by decide, by decide, by decide, mainMemory_of (by decide), by decide, by decide⟩, by decide,
    by decide⟩
/-- The commit of an AMO writes memory and rd (R501, R515). -/
theorem test_commit_amo : observe (fun t => (t.x 3, t.mem.byte 0x1FFFFFFC)) (commit amoAtHead) = some (7, 5) := by decide

/-- The first byte above the window, and an access that crosses its end. -/
theorem witness_FailedDataAccessesAreFatal : State.reset.outcome = none ∧ targetAt 0x20000000 = none ∧
    inMainMemory State.reset.cfg 0x20000000 1 = false ∧ targetAt 0x1FFFFFFF = none ∧
    inMainMemory State.reset.cfg 0x1FFFFFFF 2 = false ∧ (0x1FFFFFFF : Word) ≠ State.reset.cfg.tohostAddr := by decide

theorem witness_LoadReservedAndStoreConditional :
    AtEx (edge 0x1FFFFFF8) ∧ (edge 0x1FFFFFF8).mem.wf = true ∧
    MainMemory (edge 0x1FFFFFF8).cfg ((edge 0x1FFFFFF8).src1 5) 4 ∧ MainMemory (edge 0x1FFFFFF8).cfg ((edge 0x1FFFFFF8).src1 5) 8 ∧
    (edge 0x1FFFFFF8).src1 5 ≠ (edge 0x1FFFFFF8).cfg.tohostAddr ∧
    ((edge 0x1FFFFFF8).reserve (some ⟨0x1FFFFFF8, 4⟩)).reservation = some ⟨(edge 0x1FFFFFF8).src1 5, 4⟩ ∧
    ((edge 0x1FFFFFF8).reserve (some ⟨0x1FFFFFF8, 8⟩)).reservation = some ⟨(edge 0x1FFFFFF8).src1 5, 8⟩ ∧
    ((edge 0x1FFFFFF8).reserve (some ⟨0x1FFFFFF8, 8⟩)).reservation ≠ some ⟨(edge 0x1FFFFFF8).src1 5, 4⟩ ∧
    (edge 0x1FFFFFF8).reservation ≠ some ⟨(edge 0x1FFFFFF8).src1 5, 8⟩ :=
  ⟨fun h => (by cases h), by decide, mainMemory_of (by decide), mainMemory_of (by decide), by decide, by decide, by decide,
    by decide, by decide⟩

theorem witness_AmosReadModifyWrite :
    AmoReady ((edge 0x1FFFFFFC).src1 5) 4 (edge 0x1FFFFFFC) ∧ AmoReady ((edge 0x1FFFFFF8).src1 5) 8 (edge 0x1FFFFFF8) ∧
    (edge 0x1FFFFFF8).cfg.xlen = .rv64 :=
  ⟨⟨fun h => (by cases h), mainMemory_of (by decide), by decide, by decide, by decide⟩,
    ⟨fun h => (by cases h), mainMemory_of (by decide), by decide, by decide, by decide⟩, rfl⟩

theorem witness_OnlyTheNamedInstructionsTouchReservationAndCsrs :
    observe (fun t => decide (t.reservation ≠ (edge 0x1FFFFFF8).reservation)) (exec (.lrW 0 0 6 5) (edge 0x1FFFFFF8)) =
      some true ∧
    observe (fun t => decide (t.csr ≠ CsrFile.reset)) (exec .mret State.reset) = some true := by decide

theorem witness_CsrInstructionsReadAndWrite :
    AtEx (core2 .rv32 0 []) ∧ sparseWf (core2 .rv32 0 []).csr.other = true ∧ isCounter .rv32 0xC80 = true ∧
    isCounter .rv64 0xC80 = false := ⟨atEx_two _ _, by decide, by decide, by decide⟩

def writes : State := core2 .rv32 0 [(17, 64), (10, 1), (11, 0x1FFFFFFE), (12, 2)]

theorem witness_EcallPerformsItsServices :
    (core2 .rv32 0 [(17, 93)]).x 17 = 93 ∧ (core2 .rv32 0 [(17, 1)]).x 17 = 1 ∧
    (AtEx writes ∧ writes.x 17 = 64 ∧ writes.x 10 = 1 ∧
      ∀ i, i < (writes.x 12).toNat → MainMemory writes.cfg (ofIntX writes.cfg.xlen ((writes.x 11).toNat + i)) 1) ∧
    (let s := core2 .rv32 0 [(17, 64), (10, 2)];
      s.x 17 ≠ 1 ∧ s.x 17 ≠ 93 ∧ ¬(s.x 17 = 64 ∧ s.x 10 = 1)) := by
  refine ⟨by decide, by decide, ⟨fun h => (by cases h), by decide, by decide, fun i hi => ?_⟩, by decide⟩
  have h2 : i < 2 := hi
  match i, h2 with
  | 0, _ => exact mainMemory_of (by decide)
  | 1, _ => exact mainMemory_of (by decide)

theorem witness_StopsAreRaisedAtRetirement :
    (let s := State.reset.requestStop .halted;
      s.ex.stop = some .halted ∧ s.outcome = none) ∧
    (let s := (core6 .ebreak 0 0 0).requestStop .halted;
      s.ex.stop = some .halted ∧ AtEx s ∧ s.cfg.pipe = .sixStage) ∧
    (let s := resultAtHead.setRob 0 ⟨true, true, 0, 0, false, false, some .halted, 0⟩;
      s.six.count > 0 ∧ (s.robAt s.six.head).ready = true ∧ (s.robAt s.six.head).exception = some .halted ∧
      s.outcome = none) := ⟨by decide, ⟨by decide, fun _ => by decide, by decide⟩, by decide⟩

theorem witness_CompressedLoadsAndStoresAccessMemory :
    let s := core2 .rv64 0 [(2, 0x1FFFFFF8), (14, 0x1FFFFFF8)]
    AtEx s ∧ s.mem.wf = true ∧ MainMemory s.cfg (s.ea (creg 6) (s.cfg.xlen.zext (4 : BitVec 7))) 4 ∧
    MainMemory s.cfg (s.ea (creg 6) (s.cfg.xlen.zext (0 : BitVec 8))) 8 ∧
    MainMemory s.cfg (s.ea 2 (s.cfg.xlen.zext (4 : BitVec 8))) 4 ∧
    MainMemory s.cfg (s.ea 2 (s.cfg.xlen.zext (0 : BitVec 9))) 8 ∧
    s.ea 2 (s.cfg.xlen.zext (0 : BitVec 9)) ≠ s.cfg.tohostAddr :=
  ⟨fun h => (by cases h), by decide, mainMemory_of (by decide), mainMemory_of (by decide), mainMemory_of (by decide),
    mainMemory_of (by decide), by decide⟩

theorem witness_SixStageRefusesCompressedCode :
    (core6 .cEbreak 0 0 0).six.reg.l4.valid = true ∧ (core6 .cEbreak 0 0 0).six.reg.l4.op = some .cEbreak ∧
    Instr.isCompressed .cEbreak = true ∧ (core6 .cEbreak 0 0 0).outcome = none := by decide

/-- `TOHOST_ADDR` inside and outside the window. -/
def tohostIn : State := { State.reset with cfg := { defaultConfig with tohostAddr := 0x1FFFFFF8 } }

theorem witness_TohostWritesStopTheRun :
    State.reset.outcome = none ∧ targetAt State.reset.cfg.tohostAddr = none ∧ lowNumber 1 0x1FF ≠ 0 ∧ lowNumber 1 0x100 = 0 ∧
    targetAt tohostIn.cfg.tohostAddr = none ∧ MainMemory tohostIn.cfg tohostIn.cfg.tohostAddr 8 ∧
    inMainMemory State.reset.cfg State.reset.cfg.tohostAddr 1 = false :=
  ⟨by decide, by decide, by decide, by decide, by decide, mainMemory_of (by decide), by decide⟩

theorem witness_MemoryRoundTrip : MainMemory State.reset.cfg 0x1FFFFFF8 8 ∧
    (0x1FFFFFF8 : Word) ≠ State.reset.cfg.tohostAddr ∧ State.reset.mem.wf = true ∧
    MainMemory State.reset.cfg (ofIntX .rv32 (0x1FFFFFF8 + 7)) 1 :=
  ⟨mainMemory_of (by decide), by decide, by decide, mainMemory_of (by decide)⟩

theorem witness_DmiFetchesEqualBusFetches : Config.wf State.reset.cfg = true ∧ State.reset.cfg.xlen.Fits 0x1FFFFFFC ∧
    (∃ w u, fetch 0x1FFFFFFC { State.reset with dmi := none } = .ok w u) ∧
    (∃ w u, fetch 0x1FFFFFFC { State.reset with dmi := some (dmiGrant defaultConfig) } = .ok w u) ∧
    isDeviceAddr State.reset.cfg 0x1FFFFFFC = false ∧ inMainMemory State.reset.cfg 0x1FFFFFFC 4 = true :=
  ⟨by decide, by decide, eq_fetchOk (by decide), eq_fetchOk (by decide), by decide, by decide⟩

theorem witness_BadFetchesEndTheRun : State.reset.outcome = none ∧ isDeviceAddr State.reset.cfg 0x100000FF = true ∧
    isDeviceAddr State.reset.cfg 0x80001000 = true ∧ isDeviceAddr State.reset.cfg 0x1FFFFFFD = false ∧
    State.reset.dmi = none ∧ inMainMemory State.reset.cfg 0x1FFFFFFD 4 = false ∧ Config.wf State.reset.cfg = true ∧
    { State.reset with dmi := some (dmiGrant defaultConfig) }.dmi = some (dmiGrant State.reset.cfg) := by decide

theorem witness_UnboundTargetsAnswerWithoutEffect :
    let s := { State.reset with cfg := { defaultConfig with unbound := [.plic] } }
    targetAt 0x0C3FFFFF = some .plic ∧ Target.plic ∈ s.cfg.unbound ∧ (0x0C3FFFFF : Word) ≠ s.cfg.tohostAddr := by decide

/-- Every target bound and `TOHOST_ADDR` outside the devices: the hypotheses of the device statements. -/
theorem witness_devices : (∀ t : Target, t ∉ State.reset.cfg.unbound) ∧ targetAt State.reset.cfg.tohostAddr = none ∧
    State.reset.cfg.plicNsrc ≤ 1024 ∧ State.reset.plic.priority.length = State.reset.cfg.plicNsrc ∧
    State.reset.outcome = none ∧ 31 < State.reset.cfg.plicNsrc ∧ 32 * 0 < State.reset.cfg.plicNsrc :=
  ⟨fun t => by simp [State.reset, State.powerOn, defaultConfig], by decide, by decide, by decide, by decide, by decide,
    by decide⟩

theorem witness_PlicClaimsAndCompletes :
    (∀ id, ¬(sourceBit State.reset.plic.pending id = true ∧ State.reset.plic.threshold.toNat < State.reset.plic.prio id)) ∧
    (let s := plic5 1;
      Target.plic ∉ s.cfg.unbound ∧ s.cfg.plicNsrc ≤ 1024 ∧ 5 < s.cfg.plicNsrc ∧ sourceBit s.plic.pending 5 = true ∧
      sourceBit s.plic.enable 5 = true ∧ s.plic.threshold.toNat < s.plic.prio 5) := by
  refine ⟨fun id h => ?_, by decide⟩
  have hb : sourceWord State.reset.plic.pending (id / 32) = 0 := by
    by_cases hk : id / 32 < 32
    · simp [sourceWord, State.reset, State.powerOn, hk]
    · simp [sourceWord, State.reset, State.powerOn, hk]
  simp [sourceBit, hb] at h

theorem witness_DmaCopiesTheWholeSource :
    let s := dmaStarted 0x1FFFFFF0 0x1FFFFFF8 8
    s.mem.wf = true ∧ s.dma.inFlight = true ∧ s.dma.buffer = none ∧ s.dma.xferLen.toNat ≠ 0 ∧
    s.cfg.memSize ≤ 2 ^ s.cfg.xlen.bits ∧ meetsDevice s.cfg (s.dma.xferSrc.setWidth 64) 8 = false ∧
    meetsDevice s.cfg (s.dma.xferDst.setWidth 64) 8 = false ∧ inMainMemory s.cfg (s.dma.xferSrc.setWidth 64) 8 = true ∧
    inMainMemory s.cfg (s.dma.xferDst.setWidth 64) 8 = true := by decide

theorem witness_DmaEndsOrIsRefused :
    (dmaStarted 0 0 0).dma.xferLen.toNat = 0 ∧ (dmaStarted 0 0 0).dma.inFlight = true ∧
    meetsDevice defaultConfig 0x1FFFFFFF 2 = false ∧ inMainMemory defaultConfig 0x1FFFFFFF 2 = false ∧
    meetsDevice defaultConfig 0x0FFFFFFF 2 = true ∧ meetsDevice defaultConfig 0x0FFFFFFF 1 = false ∧
    (let s := nextOf (dmaStep (dmaStarted 0x10002000 0x1FFFFFFF 2));
      s.dma.inFlight = true ∧ s.outcome = none ∧ s.dma.buffer = some [0x80, 0xFF] ∧ s.dma.xferLen.toNat = 2 ∧
      s.dma.xferDst.setWidth 64 = (0x1FFFFFFF : Word)) ∧
    (nextOf (dmaStep (dmaStarted 0x10002000 0x0FFFFFFF 2))).dma.buffer = some [0x80, 0xFF] := by decide
/-- A destination outside main memory aborts the transfer, clears `control` bit 0 and writes nothing (R132, R133). -/
theorem test_dma_abort : observe (fun t => (t.dma.inFlight, t.dma.control, t.mem.byte 0x1FFFFFFF))
    (dmaStep (nextOf (dmaStep (dmaStarted 0x10002000 0x1FFFFFFF 2)))) = some (false, 0, 0) := by decide

def pending (s : State) : State :=
  { s with timer := ⟨5, 5, 0⟩, csr := { s.csr with mstatus := 8, mtvec := 0x10001041 } }

theorem witness_PollEntersTheInterrupt :
    (∀ s ∈ [pending State.reset, pending (six .rv32)], s.timer.mtimecmp.toNat ≤ s.timer.mtime.toNat ∧
      s.csr.mstatus.getLsbD 3 = true ∧ s.csr.mip.getLsbD 11 = false ∧ s.cfg.irqGateMie = false ∧
      s.cfg.xlen.Fits s.cfg.irqCause) ∧
    ((pending (six .rv32)).six.count = 0 ∧ (pending (six .rv32)).six.reg.l4.valid = false) ∧
    (pending (core6 .mret 0 0 0)).six.count ≠ 0 := by
  refine ⟨fun s hs => ?_, by decide, by decide⟩
  simp only [List.mem_cons, List.not_mem_nil, or_false] at hs
  rcases hs with h | h <;> subst h <;> decide

theorem witness_PollDoesNotEnterWhenMasked :
    (let s := { pending State.reset with csr := { CsrFile.reset with mstatus := 0x7 } };
      s.timer.mtimecmp.toNat ≤ s.timer.mtime.toNat ∧ s.csr.mstatus.getLsbD 3 = false) ∧
    (let s := { pending State.reset with csr := { CsrFile.reset with mstatus := 8, mip := 0x800 } };
      s.timer.mtimecmp.toNat ≤ s.timer.mtime.toNat ∧ s.csr.mip.getLsbD 11 = true) ∧
    (let s := { pending State.reset with cfg := { defaultConfig with irqGateMie := true } };
      s.timer.mtimecmp.toNat ≤ s.timer.mtime.toNat ∧ s.cfg.irqGateMie = true ∧ s.csr.mie.getLsbD 7 = false) ∧
    (lateMachine.timer.mtime.toNat < lateMachine.timer.mtimecmp.toNat ∧ lateMachine.irq.entered = true) := by decide

theorem witness_IssueWaitsForItsOperands :
    (let s := waiting 0x00308113 (core6 (.addi 1 0 5) 0x10001000 0 0);
      s.ex = ExecResult.none ∧ s.six.reg.l3.valid = true ∧ s.six.tail < s.six.rob.length ∧ s.six.reg.l3.record.rs1 = 1 ∧
      (s.robAt 0).valid = true ∧ (s.robAt 0).destReg = 1) ∧
    (let s := waiting 0x00308113 (six .rv32);
      s.ex = ExecResult.none ∧ s.six.reg.l3.valid = true ∧ s.six.tail < s.six.rob.length ∧ s.irq.drain = false ∧
      s.six.count = 0 ∧ s.mustStall = false) := by decide

theorem witness_TicksStayOnTime :
    0 < State.reset.cfg.mtimeTick ∧
    ticksBefore State.reset.cfg (State.reset.stats.cycles * State.reset.cfg.clkPeriod) ≤ State.reset.timer.ticks ∧
    State.reset.timer.ticks ≤ ticksUpTo State.reset.cfg (State.reset.stats.cycles * State.reset.cfg.clkPeriod) ∧
    observe (·.outcome) (step State.reset) = some none ∧ isNext (boundary State.reset) = true := by decide
/-- Cycle 100 runs at the time of the first tick, which the empty schedule runs before it (R454, entry 4). -/
theorem test_tick : observe (fun b => (b.timer.mtime, b.timer.ticks))
    (boundary { State.reset with stats := { State.reset.stats with cycles := 99 } }) = some (1, 1) := by decide

theorem witness_ImageBytesArePlacedInMainMemory :
    Memory.wf [] = true ∧ (loadData defaultConfig [] 0x1FFFFFFE [1, 2]).isSome = true ∧
    loadData defaultConfig [] 0x1FFFFFFF [1, 2] = none ∧ 5 < (HexRecord.mk 0 6 []).kind := by decide

end Sys2Proof.Tests
end

section
/-! PROOFS. The reset state (R70) and the register x0 (R31). -/

namespace Sys2Proof.Machine

/-! ### General registers (R31) -/

theorem State.x_of_ne_zero {r : Reg} (h : r ≠ 0) (s : State) : s.x r = s.regs[r.toNat] := if_neg h

@[simp] theorem State.setX_zero (v : Word) (s : State) : s.setX 0 v = s := if_pos rfl

/-- Settles O9. Reading after writing is the law `State.x_setX`. -/
theorem registerZeroIgnoresWrites : Obligations.RegisterZeroIgnoresWrites :=
  fun s rd r v => ⟨s.x_zero, s.setX_zero v, s.x_setX rd v r⟩

/-! ### The parts of the state that reset fills (R70) -/

theorem CsrFile.named_reset (n : CsrName) : CsrFile.reset.named n = 0 := by cases n <;> rfl

theorem CsrFile.get_reset (a : CsrAddr) : CsrFile.reset.get a = 0 := by
  unfold CsrFile.get
  cases csrName a with
  | some n => exact named_reset n
  | none => rfl

/-- The scoreboard follows the reorder buffer (R516): with no valid entry no register is busy. -/
theorem State.busy_eq_false_of_no_valid {s : State} (h : ∀ j, (s.robAt j).valid = false) (r : Reg) :
    s.busy r = false := by
  have hany : (s.six.rob.any fun e => e.valid && e.destReg == r) = false := by
    refine List.any_eq_false.2 fun e he => ?_
    obtain ⟨j, hj, rfl⟩ := List.getElem_of_mem he
    have hv : s.six.rob[j].valid = false := by simpa [State.robAt, hj] using h j
    simp [hv]
  simp [State.busy, hany]

theorem State.robAt_powerOn (cfg : Config) (regs : Vector Word 32) (mem : Memory) (sched : List (List AgentEvent))
    (j : Nat) : (State.powerOn cfg regs mem sched).robAt j = RobEntry.empty :=
  List.getElem?_getD_replicate_default_eq ..

theorem sourceBit_replicate_zero (id : Nat) : sourceBit (Vector.replicate 32 0) id = false := by
  unfold sourceBit sourceWord
  rw [Vector.getElem?_replicate]
  split <;> simp

theorem Plic.prio_powerOn (cfg : Config) (regs : Vector Word 32) (mem : Memory) (sched : List (List AgentEvent))
    (id : Nat) : (State.powerOn cfg regs mem sched).plic.prio id = 0 :=
  congrArg BitVec.toNat (List.getElem?_getD_replicate_default_eq ..)

/-- Settles O1. The single fields are those of `State.powerOn`; the tables (CSRs, reorder buffer, scoreboard, PLIC sources)
are the lemmas above. -/
theorem resetLeavesTheListedValues : Obligations.ResetLeavesTheListedValues := by
  intro cfg regs mem sched s
  have hrob (j : Nat) : (s.robAt j).valid = false := congrArg RobEntry.valid (State.robAt_powerOn cfg regs mem sched j)
  have hplic (id : Nat) :
      s.plic.prio id = 0 ∧ sourceBit s.plic.pending id = false ∧ sourceBit s.plic.enable id = false :=
    ⟨Plic.prio_powerOn cfg regs mem sched id, sourceBit_replicate_zero id, sourceBit_replicate_zero id⟩
  have hdraw (a : CsrAddr) (ha : isCounter cfg.xlen a = true) :
      (s.readCsr a).1 = cfg.xlen.wrap (Config.draw s.draws) := congrArg Prod.fst (State.readCsr_of_counter (s := s) ha)
  have hmie : s.mie = false := show (0 &&& mieBit != 0) = false by decide
  exact ⟨s.x_zero, fun r hr => s.x_of_ne_zero hr, rfl, rfl, fun a _ => CsrFile.get_reset a, hdraw,
    ⟨rfl, rfl, rfl⟩, ⟨rfl, rfl, rfl, rfl⟩, ⟨rfl, rfl, rfl, rfl⟩, rfl, ⟨rfl, rfl, rfl, hrob, rfl⟩,
    State.busy_eq_false_of_no_valid hrob, rfl, rfl, rfl, rfl, rfl, rfl, rfl, rfl, hplic,
    rfl, rfl, rfl, rfl, rfl, rfl, rfl, rfl, rfl, rfl, hmie⟩

end Sys2Proof.Machine
end

section
/-! PROOFS. The bus: the writes of `TOHOST_ADDR` (R83), the failing fetches (R107, R411) and the registers of the DMA engine
(R130). -/

namespace Sys2Proof.Machine

/-! ### Run outcomes and the low bytes of a value -/

/-- In a run that has not ended, the outcome raised is the one recorded (R415). -/
theorem State.withOutcome_of_running {s : State} (h : s.outcome = none) (o : RunOutcome) :
    s.withOutcome o = { s with outcome := some o } := by
  simp [State.withOutcome, h]

theorem lowNumber_lt (n : Nat) (v : Word) : lowNumber n v < 2 ^ 64 := (Nat.mod_le ..).trans_lt v.isLt

/-- A Write of `n` bytes carries the low `n` bytes of the value (R101). -/
theorem leValue_leBytes_eq_lowNumber {n : Nat} (hn : n ≤ 8) (v : Word) :
    leValue (leBytes n v) = BitVec.ofNat 64 (lowNumber n v) := by
  rw [leValue_leBytes n hn]
  exact BitVec.eq_of_toNat_eq (by simp [lowNumber])

theorem setWidth_leValue_leBytes_four (v : Word) : (leValue (leBytes 4 v)).setWidth 32 = v.setWidth 32 := by
  rw [leValue_leBytes 4 (by decide)]
  exact BitVec.eq_of_toNat_eq (by simp)

theorem XLen.wrap_ofNat (xl : XLen) (k : Nat) : xl.wrap (BitVec.ofNat 64 k) = ofIntX xl k := by
  rw [XLen.wrap, BitVec.setWidth_ofNat_of_le (xlen_bits_le xl), ofIntX, BitVec.ofInt_natCast]

theorem le_eight_of_mem_sizes {n : Nat} (hn : n ∈ [1, 2, 4, 8]) : n ≤ 8 :=
  (by decide : ∀ n ∈ [1, 2, 4, 8], n ≤ 8) n hn

theorem burstOk_of_mem_sizes {n : Nat} (hn : n ∈ [1, 2, 4, 8]) : burstOk n = true :=
  (by decide : ∀ n ∈ [1, 2, 4, 8], burstOk n = true) n hn

/-! ### Reads outside main memory (R88) -/

/-- A Read in no device range and outside the window has status ADDRESS_ERROR, for every length a CPU initiator uses. -/
theorem transport_read_outside {s : State} {a : Word} {n : Nat} (i : Initiator) (hn : n ∈ [1, 2, 4, 8])
    (ha : targetAt a = none) (hout : inMainMemory s.cfg a n = false) :
    transport ⟨i, .read, a, n, []⟩ s = .addressError := by
  have hn0 : n ≠ 0 := by rintro rfl; simp at hn
  rw [transport_main ha (.inl rfl)]
  simp [mainMemoryAccess, burstOk_of_mem_sizes hn, hn0, hout]

/-! ### The to-host word (R83) -/

/-- A Write of `TOHOST_ADDR` is never forwarded: it has no effect, or it ends the run with the value as code. -/
theorem memWrite_tohost (s : State) (v : Word) {n : Nat} (hn : n ≤ 8) :
    memWrite s.cfg.tohostAddr n v s =
      if lowNumber n v = 0 then .ok 0 s
      else .stopped (.next (s.withOutcome (.stopped (ofIntX s.cfg.xlen (lowNumber n v))))) := by
  have hzero : BitVec.ofNat 64 (lowNumber n v) = 0 ↔ lowNumber n v = 0 := by
    rw [← BitVec.toNat_inj, BitVec.toNat_ofNat, Nat.mod_eq_of_lt (lowNumber_lt n v)]
    rfl
  rw [memWrite, dataAccess, transport, if_pos ⟨rfl, rfl⟩, tohostWrite]
  simp only [leValue_leBytes_eq_lowNumber hn, hzero, XLen.wrap_ofNat]
  by_cases hv : lowNumber n v = 0
  · simp only [if_pos hv, leValue]
  · simp only [if_neg hv]

/-- Settles O42. The Writes are `memWrite_tohost`; a Read is one of main memory, by its status inside or outside the window. -/
theorem tohostWritesStopTheRun : Obligations.TohostWritesStopTheRun := by
  intro s v n hn hrun ht
  have hwrite := memWrite_tohost s v (le_eight_of_mem_sizes hn)
  refine ⟨fun hv => ?_, fun hv => ?_, fun hm => memRead_main hn hm, fun hout => ?_⟩
  · rw [hwrite, if_neg hv, State.withOutcome_of_running hrun]
  · rw [hwrite, if_pos hv]
  · rw [memRead, dataAccess, transport_read_outside .data hn ht hout]
    simp only [raiseBusError, State.withOutcome_of_running hrun]

/-! ### Fetches that end the run (R107, R411) -/

/-- The DMI check of R92 in arithmetic. -/
theorem DmiDescriptor.covers_iff (d : DmiDescriptor) (pc : Word) :
    d.covers pc = true ↔ d.readOk = true ∧ d.startAddr ≤ pc.toNat ∧ pc.toNat + 4 ≤ d.endAddr := by
  simp [DmiDescriptor.covers, and_assoc]

/-- The offset of R86 does not wrap where the address lies less than 2^XLEN above the base of the window. -/
theorem memOffset_of_le {cfg : Config} {a : Word} (hlo : cfg.memBase.toNat ≤ a.toNat)
    (hlt : a.toNat - cfg.memBase.toNat < 2 ^ cfg.xlen.bits) : memOffset cfg a = a.toNat - cfg.memBase.toNat := by
  have hsub : (a - cfg.memBase).toNat = a.toNat - cfg.memBase.toNat := BitVec.toNat_sub_of_le hlo
  have hwrap : atXLen cfg.xlen opSub a cfg.memBase = cfg.xlen.wrap (a - cfg.memBase) := by
    rw [atXLen, opSub, XLen.wrap]
    congr 1
    rw [sub_eq_iff_eq_add, ← BitVec.setWidth_add _ _ (xlen_bits_le _), sub_add_cancel]
  rw [memOffset, hwrap, wrap_of_fits (by rwa [XLen.Fits, hsub]), hsub]

/-- What the granted descriptor covers is main memory (R91, R94), as the window is no larger than the address space. -/
theorem inMainMemory_of_dmiGrant_covers {cfg : Config} {pc : Word} (hsize : cfg.memSize ≤ 2 ^ cfg.xlen.bits)
    (hc : (dmiGrant cfg).covers pc = true) : inMainMemory cfg pc 4 = true := by
  obtain ⟨-, hlo, hhi⟩ := ((dmiGrant cfg).covers_iff pc).1 hc
  simp only [dmiGrant] at hlo hhi
  rw [inMainMemory, memOffset_of_le hlo (by omega), decide_eq_true_eq]
  omega

/-- The window of a machine of the spec is no larger than the address space (R86). -/
theorem Config.memSize_le_of_wf {cfg : Config} (h : Config.wf cfg = true) : cfg.memSize ≤ 2 ^ cfg.xlen.bits := by
  simp only [Config.wf, Bool.and_eq_true, decide_eq_true_eq] at h
  tauto

/-- Settles O45. Outside main memory the granted descriptor does not cover the word, so the fetch takes the bus. -/
theorem badFetchesEndTheRun : Obligations.BadFetchesEndTheRun := by
  intro s pc hrun
  refine ⟨fun hdev => ?_, fun hdev hdmi hout => ?_⟩
  · rw [fetch, if_pos hdev, refuseFetch, State.withOutcome_of_running hrun]
  · have ht : targetAt pc = none := by simpa using (Bool.or_eq_false_iff.1 hdev).1
    have hmiss : s.dmi.any (·.covers pc) = false := by
      rcases hdmi with hnone | ⟨hwf, hgrant⟩
      · rw [hnone]; rfl
      · rw [hgrant, Option.any_some, ← Bool.not_eq_true]
        intro hcov
        exact Bool.eq_false_iff.1 hout (inMainMemory_of_dmiGrant_covers (Config.memSize_le_of_wf hwf) hcov)
    rw [fetch, if_neg (by simp [hdev]), if_neg (by simp [hmiss]),
      transport_read_outside .instruction (by decide) ht hout]
    simp only [raiseFetchError, State.withOutcome_of_running hrun]

/-! ### The registers of the DMA engine (R130) -/

theorem and_one_eq_zero_iff (v : BitVec 32) : v &&& 1#32 = 0#32 ↔ v.getLsbD 0 = false := by
  rw [BitVec.and_one_eq_setWidth_ofBool_getLsbD]
  cases v.getLsbD 0 <;> decide

theorem Dma.writeControl_of_inFlight {d : Dma} (h : d.inFlight = true) (v : BitVec 32) :
    d.writeControl v = { d with control := (v &&& ~~~1#32) ||| (d.control &&& 1#32) } := by
  simp [Dma.writeControl, h]

/-- A Write to an idle engine with bit 0 set latches the parameters and starts the transfer. -/
theorem Dma.writeControl_start {d : Dma} (h : d.inFlight = false) {v : BitVec 32} (hv : v.getLsbD 0 = true) :
    d.writeControl v = { d with
      control := v, inFlight := true, xferSrc := d.src, xferDst := d.dst, xferLen := d.len, buffer := none } := by
  simp [Dma.writeControl, h, and_one_eq_zero_iff, hv]

theorem Dma.writeControl_idle {d : Dma} (h : d.inFlight = false) {v : BitVec 32} (hv : v.getLsbD 0 = false) :
    d.writeControl v = { d with control := v } := by
  simp [Dma.writeControl, h, (and_one_eq_zero_iff v).2 hv]

/-- The value a Write in flight leaves in `control`: bit 0 as it was, bits [31:1] of the value written. -/
theorem getLsbD_keepBit0 (v c : BitVec 32) :
    ((v &&& ~~~1#32) ||| (c &&& 1#32)).getLsbD 0 = c.getLsbD 0 ∧
      ∀ i, 1 ≤ i → i < 32 → ((v &&& ~~~1#32) ||| (c &&& 1#32)).getLsbD i = v.getLsbD i := by
  simp only [BitVec.getLsbD_or, BitVec.getLsbD_and, BitVec.getLsbD_not, BitVec.getLsbD_one]
  refine ⟨by simp, fun i h1 h32 => ?_⟩
  have hi : i ≠ 0 := by omega
  simp [hi, h32]

/-- The engine after a Write of one of its registers (R127, R130). -/
def Dma.writeReg (d : Dma) (v : BitVec 32) : DmaPort → Dma
  | .src => { d with src := v }
  | .dst => { d with dst := v }
  | .len => { d with len := v }
  | .control => d.writeControl v

theorem dmaWrite_some (p : DmaPort) (v : Word) (s : State) :
    dmaWrite (some p) v s = .ok 0 { s with dma := s.dma.writeReg (v.setWidth 32) p } := by
  cases p <;> rfl

/-- A 4-byte Write in the range of the bound DMA engine is one of the register at its offset (R127). -/
theorem memWrite_dma {s : State} {a : Word} {p : DmaPort} (v : Word) (hb : Target.dma ∉ s.cfg.unbound)
    (ht : targetAt s.cfg.tohostAddr = none) (ha : targetAt a = some .dma)
    (hp : dmaPort (a - BitVec.ofNat 64 (targetBase .dma)).toNat 4 = some p) :
    memWrite a 4 v s = .ok 0 { s with dma := s.dma.writeReg (v.setWidth 32) p } := by
  rw [memWrite_device 4 v ha hb (ne_tohost ht ha), deviceWrite, hp, dmaWrite_some, setWidth_leValue_leBytes_four]

/-- Settles O52. The four registers are `memWrite_dma`; a Write of `control` is one of the three cases of
`Dma.writeControl`. -/
theorem dmaStartsOnControlBit0 : Obligations.DmaStartsOnControlBit0 := by
  intro s v hb ht
  refine ⟨memWrite_dma (p := .src) v hb ht (by decide) (by decide),
    memWrite_dma (p := .dst) v hb ht (by decide) (by decide), memWrite_dma (p := .len) v hb ht (by decide) (by decide),
    s.dma.writeControl (v.setWidth 32), memWrite_dma (p := .control) v hb ht (by decide) (by decide), ?_⟩
  have hbit : (v.setWidth 32).getLsbD 0 = v.getLsbD 0 := by simp
  cases hf : s.dma.inFlight with
  | true =>
    simp only [Dma.writeControl_of_inFlight hf, if_true]
    refine ⟨trivial, trivial, trivial, trivial, (getLsbD_keepBit0 _ _).1, fun i h1 h32 => ?_⟩
    rw [(getLsbD_keepBit0 _ _).2 i h1 h32]
    simp [h32]
  | false =>
    cases hv : v.getLsbD 0 with
    | true => simp [Dma.writeControl_start hf (hbit.trans hv)]
    | false => simp [Dma.writeControl_idle hf (hbit.trans hv), hf]

end Sys2Proof.Machine
end

section
/-! PROOFS. Exceptions and devices: the claim and the completion of the PLIC (R457, R458) and the legacy termination
(R463). -/

namespace Sys2Proof.Machine

/-! ### A Read of four bytes -/

/-- A Read of four bytes answers a value below 2^32 as it is. -/
theorem leValue_leBytes_four_ofNat {k : Nat} (hk : k < 2 ^ 32) :
    leValue (leBytes 4 (BitVec.ofNat 64 k)) = BitVec.ofNat 64 k := by
  have hlow : lowNumber 4 (BitVec.ofNat 64 k) = k := by
    rw [lowNumber, BitVec.toNat_ofNat]
    omega
  rw [leValue_leBytes_eq_lowNumber (by decide), hlow]

theorem toNat_setWidth_eq_lowNumber_four (v : Word) : (v.setWidth 32).toNat = lowNumber 4 v := BitVec.toNat_setWidth ..

/-! ### The bit vectors of sources (R455) -/

theorem sourceWord_setIfInBounds {k : Nat} (hk : k < 32) (bits : SourceBits) (w : BitVec 32) (m : Nat) :
    sourceWord (bits.setIfInBounds k w) m = if k = m then w else sourceWord bits m := by
  rw [sourceWord, Vector.getElem?_setIfInBounds, sourceWord]
  by_cases h : k = m
  · simp [← h, hk]
  · simp [h]

theorem getLsbD_and_not_shiftLeft {i j : Nat} (hj : j < 32) (w : BitVec 32) :
    (w &&& ~~~(1#32 <<< i)).getLsbD j = (decide (j ≠ i) && w.getLsbD j) := by
  change (w &&& ~~~(BitVec.twoPow 32 i)).getLsbD j = _
  rw [BitVec.getLsbD_and, BitVec.getLsbD_not, BitVec.getLsbD_twoPow, Bool.and_comm]
  by_cases h : j = i
  · simp [← h, hj]
  · simp [h, Ne.symm h, hj]

/-- Clearing a source below 1024 clears its bit and no other. -/
theorem sourceBit_clearSource {id : Nat} (hid : id < 1024) (bits : SourceBits) (j : Nat) :
    sourceBit (clearSource bits id) j = (decide (j ≠ id) && sourceBit bits j) := by
  rw [sourceBit, clearSource, sourceWord_setIfInBounds (by omega), sourceBit]
  by_cases hword : id / 32 = j / 32
  · have hbit : j % 32 ≠ id % 32 ↔ j ≠ id := by omega
    rw [if_pos hword, getLsbD_and_not_shiftLeft (Nat.mod_lt _ (by decide)), hword, decide_eq_decide.2 hbit]
  · have hne : j ≠ id := fun h => hword (by rw [h])
    rw [if_neg hword, decide_eq_true hne, Bool.true_and]

/-! ### The source a claim takes (R457) -/

/-- The candidates of a claim, by ascending id. -/
def Plic.candidates (nsrc : Nat) (p : Plic) : List Nat := (List.range nsrc).filter p.isCandidate

theorem Plic.mem_candidates {nsrc : Nat} {p : Plic} {id : Nat} :
    id ∈ p.candidates nsrc ↔ 1 ≤ id ∧ id < nsrc ∧ sourceBit p.pending id = true ∧ sourceBit p.enable id = true ∧
      p.threshold.toNat < p.prio id := by
  simp only [candidates, List.mem_filter, List.mem_range, isCandidate, Bool.and_eq_true, decide_eq_true_eq]
  tauto

theorem Plic.sortedLT_candidates (nsrc : Nat) (p : Plic) : (p.candidates nsrc).SortedLT :=
  (List.pairwise_lt_range.filter _).sortedLT

/-- The choice of a claim is the first candidate of maximal priority. -/
theorem Plic.best_eq_argmax (nsrc : Nat) (p : Plic) : p.best nsrc = (p.candidates nsrc).argmax p.prio := by
  have hbetter : p.better = List.argAux fun b c => p.prio c < p.prio b := by
    funext a id
    cases a <;> rfl
  rw [best, hbetter]
  rfl

/-- In an ascending list the earlier of two elements is the smaller. -/
theorem le_of_idxOf_le {l : List Nat} (hl : l.SortedLT) {a b : Nat} (ha : a ∈ l) (hb : b ∈ l)
    (h : l.idxOf a ≤ l.idxOf b) : a ≤ b := by
  have hget := hl.getElem_le_getElem_iff (hi := List.idxOf_lt_length_of_mem ha) (hj := List.idxOf_lt_length_of_mem hb)
  simpa using hget.2 h

/-- A claim takes the candidate with the largest priority, the smallest id of equals. -/
theorem Plic.best_eq_some {nsrc : Nat} {p : Plic} {id : Nat} (h : p.best nsrc = some id) :
    id ∈ p.candidates nsrc ∧
      ∀ j ∈ p.candidates nsrc, p.prio j < p.prio id ∨ (p.prio j = p.prio id ∧ id ≤ j) := by
  rw [best_eq_argmax] at h
  have hid := List.argmax_mem h
  refine ⟨hid, fun j hj => (List.le_of_mem_argmax hj h).lt_or_eq.imp_right fun heq => ⟨heq, ?_⟩⟩
  exact le_of_idxOf_le (p.sortedLT_candidates nsrc) hid hj (List.index_of_argmax h hj heq.ge)

theorem Plic.best_eq_none_iff {nsrc : Nat} {p : Plic} : p.best nsrc = none ↔ ∀ id, id ∉ p.candidates nsrc := by
  rw [best_eq_argmax, List.argmax_eq_none, List.eq_nil_iff_forall_not_mem]

theorem Plic.claim_of_best_none {nsrc : Nat} {p : Plic} (h : p.best nsrc = none) : p.claim nsrc = (0, p) := by
  rw [claim, h]

theorem Plic.claim_of_best_some {nsrc : Nat} {p : Plic} {id : Nat} (h : p.best nsrc = some id) :
    p.claim nsrc = (id, { p with pending := clearSource p.pending id, claimed := id }) := by
  rw [claim, h]

theorem Plic.claim_fst_lt {nsrc : Nat} (hn : nsrc ≤ 1024) (p : Plic) : (p.claim nsrc).1 < 2 ^ 32 := by
  cases h : p.best nsrc with
  | none => simp [claim_of_best_none h]
  | some id =>
    obtain ⟨-, hlt, -⟩ := mem_candidates.1 (best_eq_some h).1
    rw [claim_of_best_some h]
    omega

/-! ### The claim and complete register (R455) -/

theorem plicPort_claimComplete (nsrc : Nat) : plicPort nsrc 0x200004 4 = some .claimComplete := by simp [plicPort]

theorem targetAt_claimComplete : targetAt 0x0C200004 = some .plic := by decide

theorem claimComplete_offset : ((0x0C200004 : Word) - BitVec.ofNat 64 (targetBase .plic)).toNat = 0x200004 := by decide

/-- A Read of the register of a bound PLIC is a claim. -/
theorem memRead_claim {s : State} (hb : Target.plic ∉ s.cfg.unbound) (hn : s.cfg.plicNsrc ≤ 1024) :
    memRead 0x0C200004 4 s = .ok (BitVec.ofNat 64 (s.plic.claim s.cfg.plicNsrc).1)
      { s with plic := (s.plic.claim s.cfg.plicNsrc).2 } := by
  rw [memRead_device 4 targetAt_claimComplete hb, claimComplete_offset, deviceRead, plicPort_claimComplete]
  simp only [plicRead, leValue_leBytes_four_ofNat (s.plic.claim_fst_lt hn)]

/-- A Write of the register of a bound PLIC is a completion of the source it names. -/
theorem memWrite_complete {s : State} (v : Word) (hb : Target.plic ∉ s.cfg.unbound)
    (ht : targetAt s.cfg.tohostAddr = none) :
    memWrite 0x0C200004 4 v s = .ok 0 { s with plic := s.plic.complete s.cfg.plicNsrc (lowNumber 4 v) } := by
  rw [memWrite_device 4 v targetAt_claimComplete hb (ne_tohost ht targetAt_claimComplete), claimComplete_offset,
    deviceWrite, plicPort_claimComplete]
  simp only [plicWrite, setWidth_leValue_leBytes_four, toNat_setWidth_eq_lowNumber_four]

/-- A completion changes the pending bits only. -/
theorem Plic.complete_frame (nsrc : Nat) (p : Plic) (id : Nat) :
    p.complete nsrc id = { p with pending := (p.complete nsrc id).pending } := by
  unfold complete
  split <;> rfl

/-- A completion of a source from 1 to PLIC_NSRC - 1 clears its pending bit; any other has no effect. -/
theorem Plic.sourceBit_complete {nsrc : Nat} (hn : nsrc ≤ 1024) (p : Plic) (id j : Nat) :
    sourceBit (p.complete nsrc id).pending j =
      (!(decide (1 ≤ id) && decide (id < nsrc) && decide (j = id)) && sourceBit p.pending j) := by
  by_cases hid : 1 ≤ id ∧ id < nsrc
  · rw [complete, if_pos hid, sourceBit_clearSource (by omega)]
    simp [hid]
  · have hno : (decide (1 ≤ id) && decide (id < nsrc)) = false := by simpa using hid
    rw [complete, if_neg hid, hno]
    simp

/-- Settles O48. The Read is `memRead_claim`, its source the one of `Plic.best_eq_some`; the Write is
`memWrite_complete`. -/
theorem plicClaimsAndCompletes : Obligations.PlicClaimsAndCompletes := by
  refine ⟨fun s hb hn => ⟨fun hnone => ?_, fun ⟨i, hi⟩ => ?_⟩, fun s v hb ht hn => ?_⟩
  · have hbest : s.plic.best s.cfg.plicNsrc = none :=
      Plic.best_eq_none_iff.2 fun id hid => hnone id (Plic.mem_candidates.1 hid)
    rw [memRead_claim hb hn, Plic.claim_of_best_none hbest]
    rfl
  · cases hbest : s.plic.best s.cfg.plicNsrc with
    | none => exact absurd (Plic.mem_candidates.2 hi) (Plic.best_eq_none_iff.1 hbest i)
    | some id =>
      obtain ⟨hmem, hbeats⟩ := Plic.best_eq_some hbest
      have hcand := Plic.mem_candidates.1 hmem
      refine ⟨id, { s.plic with pending := clearSource s.plic.pending id, claimed := id }, ?_, hcand,
        fun j hj => hbeats j (Plic.mem_candidates.2 hj), sourceBit_clearSource (hcand.2.1.trans_le hn) _, rfl⟩
      rw [memRead_claim hb hn, Plic.claim_of_best_some hbest]
  · exact ⟨_, memWrite_complete v hb ht, Plic.complete_frame .., Plic.sourceBit_complete hn s.plic (lowNumber 4 v)⟩

/-! ### Legacy termination (R463) -/

theorem targetAt_legacyTermination {k : Nat} (hk : k < 4) :
    targetAt (0x90000000 + BitVec.ofNat 64 k) = some .legacyTermination :=
  (by decide : ∀ k < 4, targetAt (0x90000000 + BitVec.ofNat 64 k) = some .legacyTermination) k hk

theorem legacyTermination_offset (k : Nat) :
    0x90000000 + BitVec.ofNat 64 k - BitVec.ofNat 64 (targetBase .legacyTermination) = BitVec.ofNat 64 k :=
  add_sub_cancel_left ..

/-- What the target answers to an access that starts at byte `k` of its range. -/
theorem legacyTermination_at {k : Nat} (hk : k < 4) (s : State) :
    legacyTermination (BitVec.ofNat 64 k).toNat s =
      if k = 0 then .eos (s.withOutcome (.stopped 0)) else .unsupported := by
  rw [BitVec.toNat_ofNat, Nat.mod_eq_of_lt (by omega), legacyTermination]

/-- A Read of the bound target ends the run at its first byte and is unsupported at the other three. -/
theorem memRead_legacyTermination {s : State} {k : Nat} (n : Nat) (hk : k < 4)
    (hb : Target.legacyTermination ∉ s.cfg.unbound) :
    memRead (0x90000000 + BitVec.ofNat 64 k) n s =
      if k = 0 then .stopped (.next (s.withOutcome (.stopped 0)))
      else .stopped (refuseDeviceAccess (0x90000000 + BitVec.ofNat 64 k) s) := by
  rw [memRead_device n (targetAt_legacyTermination hk) hb, legacyTermination_offset, deviceRead, legacyTermination_at hk]
  by_cases h0 : k = 0 <;> simp only [h0, if_true, if_false]

/-- A Write of the bound target ends the run at its first byte and is unsupported at the other three. -/
theorem memWrite_legacyTermination {s : State} {k : Nat} (n : Nat) (v : Word) (hk : k < 4)
    (hb : Target.legacyTermination ∉ s.cfg.unbound) (ht : targetAt s.cfg.tohostAddr = none) :
    memWrite (0x90000000 + BitVec.ofNat 64 k) n v s =
      if k = 0 then .stopped (.next (s.withOutcome (.stopped 0)))
      else .stopped (refuseDeviceAccess (0x90000000 + BitVec.ofNat 64 k) s) := by
  have ha := targetAt_legacyTermination hk
  rw [memWrite_device n v ha hb (ne_tohost ht ha), legacyTermination_offset, deviceWrite, legacyTermination_at hk]
  by_cases h0 : k = 0 <;> simp only [h0, if_true, if_false]

/-- No device range ends above 0x9000_0004 (R84). -/
theorem targetBase_add_targetSize_le (t : Target) : targetBase t + targetSize t ≤ 0x90000004 := by
  cases t <;> decide

theorem targetAt_above_devices {b : Word} (hb : 0x90000004 ≤ b.toNat) : targetAt b = none := by
  refine List.find?_eq_none.2 fun t _ hin => ?_
  have hend := targetBase_add_targetSize_le t
  simp only [targetContains, Bool.and_eq_true, decide_eq_true_eq] at hin
  omega

theorem refuseDeviceAccess_of_running {s : State} (h : s.outcome = none) (a : Word) :
    refuseDeviceAccess a s = .refused (.unsupportedDeviceAccess a
      { s with outcome := some (.fatal (.refused (.unsupportedDeviceAccess a))) }) := by
  rw [refuseDeviceAccess, State.withOutcome_of_running h]

/-- Settles O51. The accesses are `memRead_legacyTermination` and `memWrite_legacyTermination`, at byte 0 and at byte k. -/
theorem legacyTerminationStopsTheRun : Obligations.LegacyTerminationStopsTheRun := by
  intro s v n k _ h1 h3 hrun hb ht a
  have hk0 : k ≠ 0 := by omega
  have hk4 : k < 4 := by omega
  rw [← State.withOutcome_of_running hrun (.stopped 0), ← refuseDeviceAccess_of_running hrun]
  exact ⟨memRead_legacyTermination (k := 0) n (by decide) hb, memWrite_legacyTermination (k := 0) n v (by decide) hb ht,
    (memRead_legacyTermination n hk4 hb).trans (if_neg hk0), (memWrite_legacyTermination n v hk4 hb ht).trans (if_neg hk0),
    fun _ => targetAt_above_devices⟩

end Sys2Proof.Machine
end

section
/-! PROOFS. The decoder and the encoder are inverse to each other (R140 to R154, R333 to R366). -/

namespace Sys2Proof

open Machine

/-! ### The rows of the opcode table exclude each other (R153) -/

/-- Every word that `r` takes is one `r'` excludes by a field value. -/
def Row.excludedBy (r r' : Row) : Bool :=
  r'.excluded.any fun e => r.mask &&& e.1 == e.1 && r.value &&& e.1 == e.2

/-- A test on the rows alone that no word is accepted by both: they belong to different XLENs, their match values differ in a
bit that both masks hold, or one excludes what the other takes. -/
def Row.apart (r r' : Row) : Bool :=
  (r.xlen.isSome && r'.xlen.isSome && r.xlen != r'.xlen) || r.value &&& r'.mask != r'.value &&& r.mask ||
    r.excludedBy r' || r'.excludedBy r

theorem rows_apart : rows.Pairwise fun r r' => r.apart r' = true := by decide +kernel

theorem Row.accepts_iff {r : Row} {xl : XLen} {w : BitVec 32} :
    r.accepts xl w = true ↔
      (r.xlen = none ∨ r.xlen = some xl) ∧ w &&& r.mask = r.value ∧ ∀ e ∈ r.excluded, w &&& e.1 ≠ e.2 := by
  simp only [Row.accepts, Bool.and_eq_true, Bool.or_eq_true, beq_iff_eq, List.all_eq_true, bne_iff_ne, ne_eq, and_assoc]

theorem Row.not_accepts_of_excludedBy {r r' : Row} {xl : XLen} {w : BitVec 32} (h : r.excludedBy r' = true)
    (hr : r.accepts xl w = true) : r'.accepts xl w = false := by
  obtain ⟨e, he, hm⟩ := List.any_eq_true.1 h
  simp only [Bool.and_eq_true, beq_iff_eq] at hm
  obtain ⟨-, hv, -⟩ := Row.accepts_iff.1 hr
  refine Bool.eq_false_iff.2 fun hr' => (Row.accepts_iff.1 hr').2.2 e he ?_
  rw [← hm.1, ← BitVec.and_assoc, hv, hm.2]

/-- No word is accepted by two rows that are apart. -/
theorem Row.not_accepts_of_apart {r r' : Row} (h : r.apart r' = true) {xl : XLen} {w : BitVec 32}
    (hr : r.accepts xl w = true) : r'.accepts xl w = false := by
  refine Bool.eq_false_iff.2 fun hr' => ?_
  obtain ⟨hx, hv, -⟩ := Row.accepts_iff.1 hr
  obtain ⟨hx', hv', -⟩ := Row.accepts_iff.1 hr'
  simp only [Row.apart, Bool.or_eq_true, Bool.and_eq_true, bne_iff_ne] at h
  rcases h with ((⟨⟨hs, hs'⟩, hne⟩ | hne) | he) | he
  · rcases hx with hx | hx <;> rcases hx' with hx' | hx' <;> simp_all
  · refine hne ?_
    rw [← hv, ← hv', BitVec.and_assoc, BitVec.and_assoc, BitVec.and_comm r.mask]
  · exact absurd hr' (Bool.eq_false_iff.1 (Row.not_accepts_of_excludedBy he hr))
  · exact absurd hr (Bool.eq_false_iff.1 (Row.not_accepts_of_excludedBy he hr'))

/-- The decoder is the one row that accepts the word. -/
theorem decode_of_accepts {r : Row} (hr : r ∈ rows) {xl : XLen} {w : BitVec 32} (h : r.accepts xl w = true) :
    decode xl w = .ok (r.build w) := by
  have hfind : rows.find? (fun r => r.accepts xl w) = some r := by
    obtain ⟨before, after, hsplit⟩ := List.append_of_mem hr
    have hpair := rows_apart
    rw [hsplit] at hpair ⊢
    refine List.find?_eq_some_iff_append.2 ⟨h, before, after, rfl, fun q hq => ?_⟩
    have hqr := (List.pairwise_append.1 hpair).2.2 q hq r (List.mem_cons_self ..)
    cases hacc : q.accepts xl w with
    | false => rfl
    | true => rw [Row.not_accepts_of_apart hqr hacc] at h; cases h
  rw [decode, hfind]

theorem exists_row_of_decode {xl : XLen} {w : BitVec 32} {i : Instr} (h : decode xl w = .ok i) :
    ∃ r ∈ rows, r.accepts xl w = true ∧ r.build w = i := by
  unfold decode at h
  split at h
  · rename_i r hr
    exact ⟨r, List.mem_of_find?_eq_some hr, by simpa using List.find?_some hr, by simpa using h⟩
  · cases h

/-! ### The formats as concatenations of fields (R142, R145)

The definitions have the literal widths as their types; here the width of each is the sum of its fields' widths, as the lemmas
about `++` need it. -/

theorem encR_eq (f7 : BitVec 7) (rs2 rs1 : Reg) (f3 : BitVec 3) (rd : Reg) (op : BitVec 7) :
    encR f7 rs2 rs1 f3 rd op = (f7 ++ rs2 ++ rs1 ++ f3 ++ rd ++ op).cast rfl := rfl
theorem encI_eq (imm : BitVec 12) (rs1 : Reg) (f3 : BitVec 3) (rd : Reg) (op : BitVec 7) :
    encI imm rs1 f3 rd op = (imm ++ rs1 ++ f3 ++ rd ++ op).cast rfl := rfl
theorem encShift_eq (f6 shamt : BitVec 6) (rs1 : Reg) (f3 : BitVec 3) (rd : Reg) (op : BitVec 7) :
    encShift f6 shamt rs1 f3 rd op = (f6 ++ shamt ++ rs1 ++ f3 ++ rd ++ op).cast rfl := rfl
theorem encS_eq (imm : BitVec 12) (rs2 rs1 : Reg) (f3 : BitVec 3) (op : BitVec 7) : encS imm rs2 rs1 f3 op =
    (imm.extractLsb 11 5 ++ rs2 ++ rs1 ++ f3 ++ imm.extractLsb 4 0 ++ op).cast rfl := rfl
theorem encB_eq (off : BitVec 13) (rs2 rs1 : Reg) (f3 : BitVec 3) (op : BitVec 7) : encB off rs2 rs1 f3 op =
    (off.extractLsb 12 12 ++ off.extractLsb 10 5 ++ rs2 ++ rs1 ++ f3 ++ off.extractLsb 4 1 ++ off.extractLsb 11 11 ++
      op).cast rfl := rfl
theorem encU_eq (imm20 : BitVec 20) (rd : Reg) (op : BitVec 7) : encU imm20 rd op = (imm20 ++ rd ++ op).cast rfl := rfl
theorem encJ_eq (off : BitVec 21) (rd : Reg) (op : BitVec 7) : encJ off rd op =
    (off.extractLsb 20 20 ++ off.extractLsb 10 1 ++ off.extractLsb 11 11 ++ off.extractLsb 19 12 ++ rd ++ op).cast rfl := rfl
theorem encAmo_eq (f5 : BitVec 5) (aq rl : BitVec 1) (rs2 rs1 : Reg) (f3 : BitVec 3) (rd : Reg) (op : BitVec 7) :
    encAmo f5 aq rl rs2 rs1 f3 rd op = (f5 ++ aq ++ rl ++ rs2 ++ rs1 ++ f3 ++ rd ++ op).cast rfl := rfl
theorem immS_eq (w : BitVec 32) : immS w = (w.extractLsb 31 25 ++ w.extractLsb 11 7).cast rfl := rfl
theorem immB_eq (w : BitVec 32) : immB w = (w.extractLsb 31 31 ++ w.extractLsb 7 7 ++ w.extractLsb 30 25 ++
    w.extractLsb 11 8 ++ 0#1).cast rfl := rfl
theorem immJ_eq (w : BitVec 32) : immJ w = (w.extractLsb 31 31 ++ w.extractLsb 19 12 ++ w.extractLsb 20 20 ++
    w.extractLsb 30 21 ++ 0#1).cast rfl := rfl

theorem half_eq (h : BitVec 16) : half h = (0#16 ++ h).cast rfl := rfl
theorem encCI_eq (f3 : BitVec 3) (imm : BitVec 6) (rd : Reg) (q : BitVec 2) :
    encCI f3 imm rd q = (f3 ++ imm.extractLsb 5 5 ++ rd ++ imm.extractLsb 4 0 ++ q).cast rfl := rfl
theorem encCL_eq (f3 : BitVec 3) (imm : BitVec 5) (rs1 rd : CReg) (q : BitVec 2) :
    encCL f3 imm rs1 rd q = (f3 ++ imm.extractLsb 4 2 ++ rs1 ++ imm.extractLsb 1 0 ++ rd ++ q).cast rfl := rfl
theorem encCShift_eq (f3 : BitVec 3) (f2 : BitVec 2) (imm : BitVec 6) (rd : CReg) (q : BitVec 2) :
    encCShift f3 f2 imm rd q = (f3 ++ imm.extractLsb 5 5 ++ f2 ++ rd ++ imm.extractLsb 4 0 ++ q).cast rfl := rfl
theorem encCBranch_eq (f3 : BitVec 3) (off : BitVec 9) (rs1 : CReg) (q : BitVec 2) : encCBranch f3 off rs1 q =
    (f3 ++ off.extractLsb 8 8 ++ off.extractLsb 4 3 ++ rs1 ++ off.extractLsb 7 6 ++ off.extractLsb 2 1 ++
      off.extractLsb 5 5 ++ q).cast rfl := rfl
theorem cImm6_eq (w : BitVec 32) : cImm6 w = (w.extractLsb 12 12 ++ w.extractLsb 6 2).cast rfl := rfl
theorem cUimmAddi4spn_eq (w : BitVec 32) : cUimmAddi4spn w =
    (w.extractLsb 10 7 ++ w.extractLsb 12 11 ++ w.extractLsb 5 5 ++ w.extractLsb 6 6 ++ 0#2).cast rfl := rfl
theorem cUimmW_eq (w : BitVec 32) : cUimmW w =
    (w.extractLsb 5 5 ++ w.extractLsb 12 10 ++ w.extractLsb 6 6 ++ 0#2).cast rfl := rfl
theorem cUimmD_eq (w : BitVec 32) : cUimmD w = (w.extractLsb 6 5 ++ w.extractLsb 12 10 ++ 0#3).cast rfl := rfl
theorem cOffJ_eq (w : BitVec 32) : cOffJ w =
    (w.extractLsb 12 12 ++ w.extractLsb 8 8 ++ w.extractLsb 10 9 ++ w.extractLsb 6 6 ++ w.extractLsb 7 7 ++
      w.extractLsb 2 2 ++ w.extractLsb 11 11 ++ w.extractLsb 5 3 ++ 0#1).cast rfl := rfl
theorem cImm16sp_eq (w : BitVec 32) : cImm16sp w =
    (w.extractLsb 12 12 ++ w.extractLsb 4 3 ++ w.extractLsb 5 5 ++ w.extractLsb 2 2 ++ w.extractLsb 6 6 ++
      0#4).cast rfl := rfl
theorem cOffB_eq (w : BitVec 32) : cOffB w =
    (w.extractLsb 12 12 ++ w.extractLsb 6 5 ++ w.extractLsb 2 2 ++ w.extractLsb 11 10 ++ w.extractLsb 4 3 ++
      0#1).cast rfl := rfl
theorem cUimmLwsp_eq (w : BitVec 32) : cUimmLwsp w =
    (w.extractLsb 3 2 ++ w.extractLsb 12 12 ++ w.extractLsb 6 4 ++ 0#2).cast rfl := rfl
theorem cUimmLdsp_eq (w : BitVec 32) : cUimmLdsp w =
    (w.extractLsb 4 2 ++ w.extractLsb 12 12 ++ w.extractLsb 6 5 ++ 0#3).cast rfl := rfl
theorem cUimmSwsp_eq (w : BitVec 32) : cUimmSwsp w = (w.extractLsb 8 7 ++ w.extractLsb 12 9 ++ 0#2).cast rfl := rfl
theorem cUimmSdsp_eq (w : BitVec 32) : cUimmSdsp w = (w.extractLsb 9 7 ++ w.extractLsb 12 10 ++ 0#3).cast rfl := rfl
theorem encUimmAddi4spn_eq (u : BitVec 10) : encUimmAddi4spn u =
    (u.extractLsb 5 4 ++ u.extractLsb 9 6 ++ u.extractLsb 2 2 ++ u.extractLsb 3 3).cast rfl := rfl
theorem encUimmW_eq (u : BitVec 7) : encUimmW u = (u.extractLsb 5 3 ++ u.extractLsb 2 2 ++ u.extractLsb 6 6).cast rfl := rfl
theorem encUimmD_eq (u : BitVec 8) : encUimmD u = (u.extractLsb 5 3 ++ u.extractLsb 7 6).cast rfl := rfl
theorem encOffJ_eq (off : BitVec 12) : encOffJ off =
    (off.extractLsb 11 11 ++ off.extractLsb 4 4 ++ off.extractLsb 9 8 ++ off.extractLsb 10 10 ++ off.extractLsb 6 6 ++
      off.extractLsb 7 7 ++ off.extractLsb 3 1 ++ off.extractLsb 5 5).cast rfl := rfl
theorem encImm16sp_eq (imm : BitVec 10) : encImm16sp imm =
    (imm.extractLsb 9 9 ++ imm.extractLsb 4 4 ++ imm.extractLsb 6 6 ++ imm.extractLsb 8 7 ++
      imm.extractLsb 5 5).cast rfl := rfl
theorem encUlwsp_eq (u : BitVec 8) : encUlwsp u = (u.extractLsb 5 5 ++ u.extractLsb 4 2 ++ u.extractLsb 7 6).cast rfl := rfl
theorem encUldsp_eq (u : BitVec 9) : encUldsp u = (u.extractLsb 5 5 ++ u.extractLsb 4 3 ++ u.extractLsb 8 6).cast rfl := rfl
theorem encUswsp_eq (u : BitVec 8) : encUswsp u = (u.extractLsb 5 2 ++ u.extractLsb 7 6).cast rfl := rfl
theorem encUsdsp_eq (u : BitVec 9) : encUsdsp u = (u.extractLsb 5 3 ++ u.extractLsb 8 6).cast rfl := rfl

/-- The low bits of an offset that is a multiple of a power of 2. -/
theorem getElem_of_lowZero {n w : Nat} {v : BitVec w} (h : lowZero n v = true) {i : Nat} (hi : i < n) (hw : i < w) :
    v[i] = false := by
  have hz : v.setWidth n = 0 := by simpa [lowZero] using h
  simpa [hi, hw] using congrArg (fun u => u.getLsbD i) hz

/-- R154: a shift amount below 32 has bit 5 clear. -/
theorem shamtOk_rv32_iff (shamt : BitVec 6) : shamtOk .rv32 shamt = true ↔ shamt[5] = false := by
  revert shamt
  decide

/-! ### What the mask of a row keeps of an encoding -/

theorem encR_mask (f7 : BitVec 7) (rs2 rs1 : Reg) (f3 : BitVec 3) (rd : Reg) (op : BitVec 7) :
    encR f7 rs2 rs1 f3 rd op &&& 0xFE00707F = encR f7 0 0 f3 0 op := by
  refine BitVec.eq_of_getLsbD_eq fun i hi => ?_
  simp only [encR_eq, BitVec.getLsbD_and, BitVec.getLsbD_cast, BitVec.getLsbD_append]
  interval_cases i <;> simp

theorem encI_mask (imm : BitVec 12) (rs1 : Reg) (f3 : BitVec 3) (rd : Reg) (op : BitVec 7) :
    encI imm rs1 f3 rd op &&& 0x707F = encI 0 0 f3 0 op := by
  refine BitVec.eq_of_getLsbD_eq fun i hi => ?_
  simp only [encI_eq, BitVec.getLsbD_and, BitVec.getLsbD_cast, BitVec.getLsbD_append]
  interval_cases i <;> simp

theorem encShift_mask (f6 shamt : BitVec 6) (rs1 : Reg) (f3 : BitVec 3) (rd : Reg) (op : BitVec 7) :
    encShift f6 shamt rs1 f3 rd op &&& 0xFC00707F = encShift f6 0 0 f3 0 op := by
  refine BitVec.eq_of_getLsbD_eq fun i hi => ?_
  simp only [encShift_eq, BitVec.getLsbD_and, BitVec.getLsbD_cast, BitVec.getLsbD_append]
  interval_cases i <;> simp

theorem encShift_mask_rv32 (f6 : BitVec 6) {shamt : BitVec 6} (h : shamtOk .rv32 shamt = true) (rs1 : Reg)
    (f3 : BitVec 3) (rd : Reg) (op : BitVec 7) :
    encShift f6 shamt rs1 f3 rd op &&& 0xFE00707F = encShift f6 0 0 f3 0 op := by
  refine BitVec.eq_of_getLsbD_eq fun i hi => ?_
  simp only [encShift_eq, BitVec.getLsbD_and, BitVec.getLsbD_cast, BitVec.getLsbD_append]
  interval_cases i <;> simp [(shamtOk_rv32_iff _).1 h]

theorem encS_mask (imm : BitVec 12) (rs2 rs1 : Reg) (f3 : BitVec 3) (op : BitVec 7) :
    encS imm rs2 rs1 f3 op &&& 0x707F = encS 0 0 0 f3 op := by
  refine BitVec.eq_of_getLsbD_eq fun i hi => ?_
  simp only [encS_eq, BitVec.getLsbD_and, BitVec.getLsbD_cast, BitVec.getLsbD_append, BitVec.getLsbD_extractLsb]
  interval_cases i <;> simp

theorem encB_mask (off : BitVec 13) (rs2 rs1 : Reg) (f3 : BitVec 3) (op : BitVec 7) :
    encB off rs2 rs1 f3 op &&& 0x707F = encB 0 0 0 f3 op := by
  refine BitVec.eq_of_getLsbD_eq fun i hi => ?_
  simp only [encB_eq, BitVec.getLsbD_and, BitVec.getLsbD_cast, BitVec.getLsbD_append, BitVec.getLsbD_extractLsb]
  interval_cases i <;> simp

theorem encU_mask (imm20 : BitVec 20) (rd : Reg) (op : BitVec 7) : encU imm20 rd op &&& 0x7F = encU 0 0 op := by
  refine BitVec.eq_of_getLsbD_eq fun i hi => ?_
  simp only [encU_eq, BitVec.getLsbD_and, BitVec.getLsbD_cast, BitVec.getLsbD_append]
  interval_cases i <;> simp

theorem encJ_mask (off : BitVec 21) (rd : Reg) (op : BitVec 7) : encJ off rd op &&& 0x7F = encJ 0 0 op :=
  encU_mask _ _ _

theorem encAmo_mask (f5 : BitVec 5) (aq rl : BitVec 1) (rs2 rs1 : Reg) (f3 : BitVec 3) (rd : Reg) (op : BitVec 7) :
    encAmo f5 aq rl rs2 rs1 f3 rd op &&& 0xF800707F = encAmo f5 0 0 0 0 f3 0 op := by
  refine BitVec.eq_of_getLsbD_eq fun i hi => ?_
  simp only [encAmo_eq, BitVec.getLsbD_and, BitVec.getLsbD_cast, BitVec.getLsbD_append]
  interval_cases i <;> simp

theorem encAmo_mask_lr (f5 : BitVec 5) (aq rl : BitVec 1) (rs2 rs1 : Reg) (f3 : BitVec 3) (rd : Reg) (op : BitVec 7) :
    encAmo f5 aq rl rs2 rs1 f3 rd op &&& 0xF9F0707F = encAmo f5 0 0 rs2 0 f3 0 op := by
  refine BitVec.eq_of_getLsbD_eq fun i hi => ?_
  simp only [encAmo_eq, BitVec.getLsbD_and, BitVec.getLsbD_cast, BitVec.getLsbD_append]
  interval_cases i <;> simp

theorem encCI_mask (f3 : BitVec 3) (imm : BitVec 6) (rd : Reg) (q : BitVec 2) :
    half (encCI f3 imm rd q) &&& 0xE003 = half (encCI f3 0 0 q) := by
  refine BitVec.eq_of_getLsbD_eq fun i hi => ?_
  simp only [half_eq, encCI_eq, BitVec.getLsbD_and, BitVec.getLsbD_cast, BitVec.getLsbD_append, BitVec.getLsbD_extractLsb]
  interval_cases i <;> simp

theorem encCI_mask_rd (f3 : BitVec 3) (imm : BitVec 6) (rd : Reg) (q : BitVec 2) :
    half (encCI f3 imm rd q) &&& 0xEF83 = half (encCI f3 0 rd q) := by
  refine BitVec.eq_of_getLsbD_eq fun i hi => ?_
  simp only [half_eq, encCI_eq, BitVec.getLsbD_and, BitVec.getLsbD_cast, BitVec.getLsbD_append, BitVec.getLsbD_extractLsb]
  interval_cases i <;> simp

theorem encCI_mask_rv32 (f3 : BitVec 3) {shamt : BitVec 6} (h : shamtOk .rv32 shamt = true) (rd : Reg) (q : BitVec 2) :
    half (encCI f3 shamt rd q) &&& 0xF003 = half (encCI f3 0 0 q) := by
  refine BitVec.eq_of_getLsbD_eq fun i hi => ?_
  simp only [half_eq, encCI_eq, BitVec.getLsbD_and, BitVec.getLsbD_cast, BitVec.getLsbD_append, BitVec.getLsbD_extractLsb]
  interval_cases i <;> simp [(shamtOk_rv32_iff _).1 h]

theorem encCShift_mask (f3 : BitVec 3) (f2 : BitVec 2) (imm : BitVec 6) (rd : CReg) (q : BitVec 2) :
    half (encCShift f3 f2 imm rd q) &&& 0xEC03 = half (encCShift f3 f2 0 0 q) := by
  refine BitVec.eq_of_getLsbD_eq fun i hi => ?_
  simp only [half_eq, encCShift_eq, BitVec.getLsbD_and, BitVec.getLsbD_cast, BitVec.getLsbD_append,
    BitVec.getLsbD_extractLsb]
  interval_cases i <;> simp

theorem encCShift_mask_rv32 (f3 : BitVec 3) (f2 : BitVec 2) {shamt : BitVec 6} (h : shamtOk .rv32 shamt = true) (rd : CReg)
    (q : BitVec 2) : half (encCShift f3 f2 shamt rd q) &&& 0xFC03 = half (encCShift f3 f2 0 0 q) := by
  refine BitVec.eq_of_getLsbD_eq fun i hi => ?_
  simp only [half_eq, encCShift_eq, BitVec.getLsbD_and, BitVec.getLsbD_cast, BitVec.getLsbD_append,
    BitVec.getLsbD_extractLsb]
  interval_cases i <;> simp [(shamtOk_rv32_iff _).1 h]

theorem encCL_mask (f3 : BitVec 3) (imm : BitVec 5) (rs1 rd : CReg) (q : BitVec 2) :
    half (encCL f3 imm rs1 rd q) &&& 0xE003 = half (encCL f3 0 0 0 q) := by
  refine BitVec.eq_of_getLsbD_eq fun i hi => ?_
  simp only [half_eq, encCL_eq, BitVec.getLsbD_and, BitVec.getLsbD_cast, BitVec.getLsbD_append, BitVec.getLsbD_extractLsb]
  interval_cases i <;> simp

theorem encCBranch_mask (f3 : BitVec 3) (off : BitVec 9) (rs1 : CReg) (q : BitVec 2) :
    half (encCBranch f3 off rs1 q) &&& 0xE003 = half (encCBranch f3 0 0 q) := by
  refine BitVec.eq_of_getLsbD_eq fun i hi => ?_
  simp only [half_eq, encCBranch_eq, BitVec.getLsbD_and, BitVec.getLsbD_cast, BitVec.getLsbD_append,
    BitVec.getLsbD_extractLsb]
  interval_cases i <;> simp

/-- C.J and C.JAL. -/
theorem encCJ_mask (f3 : BitVec 3) (off : BitVec 11) (q : BitVec 2) :
    half (f3 ++ off ++ q) &&& 0xE003 = half (f3 ++ 0#11 ++ q) := by
  refine BitVec.eq_of_getLsbD_eq fun i hi => ?_
  simp only [half_eq, BitVec.getLsbD_and, BitVec.getLsbD_cast, BitVec.getLsbD_append]
  interval_cases i <;> simp

/-- C.ADDI4SPN. -/
theorem encCIW_mask (f3 : BitVec 3) (imm : BitVec 8) (rd : CReg) (q : BitVec 2) :
    half (f3 ++ imm ++ rd ++ q) &&& 0xE003 = half (f3 ++ 0#8 ++ 0#3 ++ q) := by
  refine BitVec.eq_of_getLsbD_eq fun i hi => ?_
  simp only [half_eq, BitVec.getLsbD_and, BitVec.getLsbD_cast, BitVec.getLsbD_append]
  interval_cases i <;> simp

/-- C.SWSP and C.SDSP. -/
theorem encCSS_mask (f3 : BitVec 3) (imm : BitVec 6) (rs2 : Reg) (q : BitVec 2) :
    half (f3 ++ imm ++ rs2 ++ q) &&& 0xE003 = half (f3 ++ 0#6 ++ 0#5 ++ q) := by
  refine BitVec.eq_of_getLsbD_eq fun i hi => ?_
  simp only [half_eq, BitVec.getLsbD_and, BitVec.getLsbD_cast, BitVec.getLsbD_append]
  interval_cases i <;> simp

/-- C.MV and C.ADD. -/
theorem encCR_mask (f4 : BitVec 4) (rd rs2 : Reg) (q : BitVec 2) :
    half (f4 ++ rd ++ rs2 ++ q) &&& 0xF003 = half (f4 ++ 0#5 ++ 0#5 ++ q) := by
  refine BitVec.eq_of_getLsbD_eq fun i hi => ?_
  simp only [half_eq, BitVec.getLsbD_and, BitVec.getLsbD_cast, BitVec.getLsbD_append]
  interval_cases i <;> simp

/-- C.JR and C.JALR. -/
theorem encCR_mask_rs2 (f4 : BitVec 4) (rd rs2 : Reg) (q : BitVec 2) :
    half (f4 ++ rd ++ rs2 ++ q) &&& 0xF07F = half (f4 ++ 0#5 ++ rs2 ++ q) := by
  refine BitVec.eq_of_getLsbD_eq fun i hi => ?_
  simp only [half_eq, BitVec.getLsbD_and, BitVec.getLsbD_cast, BitVec.getLsbD_append]
  interval_cases i <;> simp

/-- C.SUB and the like. -/
theorem encCA_mask (f6 : BitVec 6) (rd : CReg) (f2 : BitVec 2) (rs2 : CReg) (q : BitVec 2) :
    half (f6 ++ rd ++ f2 ++ rs2 ++ q) &&& 0xFC63 = half (f6 ++ 0#3 ++ f2 ++ 0#3 ++ q) := by
  refine BitVec.eq_of_getLsbD_eq fun i hi => ?_
  simp only [half_eq, BitVec.getLsbD_and, BitVec.getLsbD_cast, BitVec.getLsbD_append]
  interval_cases i <;> simp

/-! ### The fields of an encoding -/

@[simp] theorem rdOf_encI (imm : BitVec 12) (rs1 : Reg) (f3 : BitVec 3) (rd : Reg) (op : BitVec 7) :
    rdOf (encI imm rs1 f3 rd op) = rd := by
  refine BitVec.eq_of_getLsbD_eq fun i hi => ?_
  simp only [rdOf, encI_eq, BitVec.getLsbD_cast, BitVec.getLsbD_append, BitVec.getLsbD_extractLsb]
  interval_cases i <;> simp

@[simp] theorem rs1Of_encI (imm : BitVec 12) (rs1 : Reg) (f3 : BitVec 3) (rd : Reg) (op : BitVec 7) :
    rs1Of (encI imm rs1 f3 rd op) = rs1 := by
  refine BitVec.eq_of_getLsbD_eq fun i hi => ?_
  simp only [rs1Of, encI_eq, BitVec.getLsbD_cast, BitVec.getLsbD_append, BitVec.getLsbD_extractLsb]
  interval_cases i <;> simp

@[simp] theorem immI_encI (imm : BitVec 12) (rs1 : Reg) (f3 : BitVec 3) (rd : Reg) (op : BitVec 7) :
    immI (encI imm rs1 f3 rd op) = imm := by
  refine BitVec.eq_of_getLsbD_eq fun i hi => ?_
  simp only [immI, encI_eq, BitVec.getLsbD_cast, BitVec.getLsbD_append, BitVec.getLsbD_extractLsb]
  interval_cases i <;> simp

@[simp] theorem csrOf_encI (imm : BitVec 12) (rs1 : Reg) (f3 : BitVec 3) (rd : Reg) (op : BitVec 7) :
    csrOf (encI imm rs1 f3 rd op) = imm := immI_encI ..

@[simp] theorem fmOf_encI (fm pred succ : BitVec 4) (rs1 : Reg) (f3 : BitVec 3) (rd : Reg) (op : BitVec 7) :
    fmOf (encI (fm ++ pred ++ succ) rs1 f3 rd op) = fm := by
  refine BitVec.eq_of_getLsbD_eq fun i hi => ?_
  simp only [fmOf, encI_eq, BitVec.getLsbD_cast, BitVec.getLsbD_append, BitVec.getLsbD_extractLsb]
  interval_cases i <;> simp

@[simp] theorem predOf_encI (fm pred succ : BitVec 4) (rs1 : Reg) (f3 : BitVec 3) (rd : Reg) (op : BitVec 7) :
    predOf (encI (fm ++ pred ++ succ) rs1 f3 rd op) = pred := by
  refine BitVec.eq_of_getLsbD_eq fun i hi => ?_
  simp only [predOf, encI_eq, BitVec.getLsbD_cast, BitVec.getLsbD_append, BitVec.getLsbD_extractLsb]
  interval_cases i <;> simp

@[simp] theorem succOf_encI (fm pred succ : BitVec 4) (rs1 : Reg) (f3 : BitVec 3) (rd : Reg) (op : BitVec 7) :
    succOf (encI (fm ++ pred ++ succ) rs1 f3 rd op) = succ := by
  refine BitVec.eq_of_getLsbD_eq fun i hi => ?_
  simp only [succOf, encI_eq, BitVec.getLsbD_cast, BitVec.getLsbD_append, BitVec.getLsbD_extractLsb]
  interval_cases i <;> simp

@[simp] theorem rdOf_encR (f7 : BitVec 7) (rs2 rs1 : Reg) (f3 : BitVec 3) (rd : Reg) (op : BitVec 7) :
    rdOf (encR f7 rs2 rs1 f3 rd op) = rd := rdOf_encI (f7 ++ rs2) ..

@[simp] theorem rs1Of_encR (f7 : BitVec 7) (rs2 rs1 : Reg) (f3 : BitVec 3) (rd : Reg) (op : BitVec 7) :
    rs1Of (encR f7 rs2 rs1 f3 rd op) = rs1 := rs1Of_encI (f7 ++ rs2) ..

@[simp] theorem rs2Of_encR (f7 : BitVec 7) (rs2 rs1 : Reg) (f3 : BitVec 3) (rd : Reg) (op : BitVec 7) :
    rs2Of (encR f7 rs2 rs1 f3 rd op) = rs2 := by
  refine BitVec.eq_of_getLsbD_eq fun i hi => ?_
  simp only [rs2Of, encR_eq, BitVec.getLsbD_cast, BitVec.getLsbD_append, BitVec.getLsbD_extractLsb]
  interval_cases i <;> simp

@[simp] theorem rdOf_encShift (f6 shamt : BitVec 6) (rs1 : Reg) (f3 : BitVec 3) (rd : Reg) (op : BitVec 7) :
    rdOf (encShift f6 shamt rs1 f3 rd op) = rd := rdOf_encI (f6 ++ shamt) ..

@[simp] theorem rs1Of_encShift (f6 shamt : BitVec 6) (rs1 : Reg) (f3 : BitVec 3) (rd : Reg) (op : BitVec 7) :
    rs1Of (encShift f6 shamt rs1 f3 rd op) = rs1 := rs1Of_encI (f6 ++ shamt) ..

@[simp] theorem shamt6_encShift (f6 shamt : BitVec 6) (rs1 : Reg) (f3 : BitVec 3) (rd : Reg) (op : BitVec 7) :
    shamt6 (encShift f6 shamt rs1 f3 rd op) = shamt := by
  refine BitVec.eq_of_getLsbD_eq fun i hi => ?_
  simp only [shamt6, encShift_eq, BitVec.getLsbD_cast, BitVec.getLsbD_append, BitVec.getLsbD_extractLsb]
  interval_cases i <;> simp

@[simp] theorem rs1Of_encS (imm : BitVec 12) (rs2 rs1 : Reg) (f3 : BitVec 3) (op : BitVec 7) :
    rs1Of (encS imm rs2 rs1 f3 op) = rs1 := rs1Of_encI (imm.extractLsb 11 5 ++ rs2) ..

@[simp] theorem rs2Of_encS (imm : BitVec 12) (rs2 rs1 : Reg) (f3 : BitVec 3) (op : BitVec 7) :
    rs2Of (encS imm rs2 rs1 f3 op) = rs2 := rs2Of_encR (imm.extractLsb 11 5) ..

@[simp] theorem immS_encS (imm : BitVec 12) (rs2 rs1 : Reg) (f3 : BitVec 3) (op : BitVec 7) :
    immS (encS imm rs2 rs1 f3 op) = imm := by
  refine BitVec.eq_of_getLsbD_eq fun i hi => ?_
  simp only [immS_eq, encS_eq, BitVec.getLsbD_cast, BitVec.getLsbD_append, BitVec.getLsbD_extractLsb]
  interval_cases i <;> simp

@[simp] theorem rs1Of_encB (off : BitVec 13) (rs2 rs1 : Reg) (f3 : BitVec 3) (op : BitVec 7) :
    rs1Of (encB off rs2 rs1 f3 op) = rs1 := by
  refine BitVec.eq_of_getLsbD_eq fun i hi => ?_
  simp only [rs1Of, encB_eq, BitVec.getLsbD_cast, BitVec.getLsbD_append, BitVec.getLsbD_extractLsb]
  interval_cases i <;> simp

@[simp] theorem rs2Of_encB (off : BitVec 13) (rs2 rs1 : Reg) (f3 : BitVec 3) (op : BitVec 7) :
    rs2Of (encB off rs2 rs1 f3 op) = rs2 := by
  refine BitVec.eq_of_getLsbD_eq fun i hi => ?_
  simp only [rs2Of, encB_eq, BitVec.getLsbD_cast, BitVec.getLsbD_append, BitVec.getLsbD_extractLsb]
  interval_cases i <;> simp

theorem immB_encB {off : BitVec 13} (h : lowZero 1 off = true) (rs2 rs1 : Reg) (f3 : BitVec 3) (op : BitVec 7) :
    immB (encB off rs2 rs1 f3 op) = off := by
  refine BitVec.eq_of_getLsbD_eq fun i hi => ?_
  simp only [immB_eq, encB_eq, BitVec.getLsbD_cast, BitVec.getLsbD_append, BitVec.getLsbD_extractLsb]
  interval_cases i <;> simp [getElem_of_lowZero h]

@[simp] theorem rdOf_encU (imm20 : BitVec 20) (rd : Reg) (op : BitVec 7) : rdOf (encU imm20 rd op) = rd := by
  refine BitVec.eq_of_getLsbD_eq fun i hi => ?_
  simp only [rdOf, encU_eq, BitVec.getLsbD_cast, BitVec.getLsbD_append, BitVec.getLsbD_extractLsb]
  interval_cases i <;> simp

@[simp] theorem immU_encU (imm20 : BitVec 20) (rd : Reg) (op : BitVec 7) : immU (encU imm20 rd op) = imm20 := by
  refine BitVec.eq_of_getLsbD_eq fun i hi => ?_
  simp only [immU, encU_eq, BitVec.getLsbD_cast, BitVec.getLsbD_append, BitVec.getLsbD_extractLsb]
  interval_cases i <;> simp

@[simp] theorem rdOf_encJ (off : BitVec 21) (rd : Reg) (op : BitVec 7) : rdOf (encJ off rd op) = rd := rdOf_encU ..

theorem immJ_encJ {off : BitVec 21} (h : lowZero 1 off = true) (rd : Reg) (op : BitVec 7) :
    immJ (encJ off rd op) = off := by
  refine BitVec.eq_of_getLsbD_eq fun i hi => ?_
  simp only [immJ_eq, encJ_eq, BitVec.getLsbD_cast, BitVec.getLsbD_append, BitVec.getLsbD_extractLsb]
  interval_cases i <;> simp [getElem_of_lowZero h]

@[simp] theorem rdOf_encAmo (f5 : BitVec 5) (aq rl : BitVec 1) (rs2 rs1 : Reg) (f3 : BitVec 3) (rd : Reg) (op : BitVec 7) :
    rdOf (encAmo f5 aq rl rs2 rs1 f3 rd op) = rd := rdOf_encI (f5 ++ aq ++ rl ++ rs2) ..

@[simp] theorem rs1Of_encAmo (f5 : BitVec 5) (aq rl : BitVec 1) (rs2 rs1 : Reg) (f3 : BitVec 3) (rd : Reg) (op : BitVec 7) :
    rs1Of (encAmo f5 aq rl rs2 rs1 f3 rd op) = rs1 := rs1Of_encI (f5 ++ aq ++ rl ++ rs2) ..

@[simp] theorem rs2Of_encAmo (f5 : BitVec 5) (aq rl : BitVec 1) (rs2 rs1 : Reg) (f3 : BitVec 3) (rd : Reg) (op : BitVec 7) :
    rs2Of (encAmo f5 aq rl rs2 rs1 f3 rd op) = rs2 := rs2Of_encR (f5 ++ aq ++ rl) ..

@[simp] theorem aqOf_encAmo (f5 : BitVec 5) (aq rl : BitVec 1) (rs2 rs1 : Reg) (f3 : BitVec 3) (rd : Reg) (op : BitVec 7) :
    aqOf (encAmo f5 aq rl rs2 rs1 f3 rd op) = aq := by
  refine BitVec.eq_of_getLsbD_eq fun i hi => ?_
  simp only [aqOf, encAmo_eq, BitVec.getLsbD_cast, BitVec.getLsbD_append, BitVec.getLsbD_extractLsb]
  interval_cases i; simp

@[simp] theorem rlOf_encAmo (f5 : BitVec 5) (aq rl : BitVec 1) (rs2 rs1 : Reg) (f3 : BitVec 3) (rd : Reg) (op : BitVec 7) :
    rlOf (encAmo f5 aq rl rs2 rs1 f3 rd op) = rl := by
  refine BitVec.eq_of_getLsbD_eq fun i hi => ?_
  simp only [rlOf, encAmo_eq, BitVec.getLsbD_cast, BitVec.getLsbD_append, BitVec.getLsbD_extractLsb]
  interval_cases i; simp

@[simp] theorem rdOf_encCI (f3 : BitVec 3) (imm : BitVec 6) (rd : Reg) (q : BitVec 2) :
    rdOf (half (encCI f3 imm rd q)) = rd := by
  refine BitVec.eq_of_getLsbD_eq fun i hi => ?_
  simp only [rdOf, half_eq, encCI_eq, BitVec.getLsbD_cast, BitVec.getLsbD_append, BitVec.getLsbD_extractLsb]
  interval_cases i <;> simp

@[simp] theorem cImm6_encCI (f3 : BitVec 3) (imm : BitVec 6) (rd : Reg) (q : BitVec 2) :
    cImm6 (half (encCI f3 imm rd q)) = imm := by
  refine BitVec.eq_of_getLsbD_eq fun i hi => ?_
  simp only [cImm6_eq, half_eq, encCI_eq, BitVec.getLsbD_cast, BitVec.getLsbD_append, BitVec.getLsbD_extractLsb]
  interval_cases i <;> simp

theorem cImm16sp_encCI {imm : BitVec 10} (h : lowZero 4 imm = true) (f3 : BitVec 3) (rd : Reg) (q : BitVec 2) :
    cImm16sp (half (encCI f3 (encImm16sp imm) rd q)) = imm := by
  refine BitVec.eq_of_getLsbD_eq fun i hi => ?_
  simp only [cImm16sp_eq, half_eq, encCI_eq, encImm16sp_eq, BitVec.getLsbD_cast, BitVec.getLsbD_append,
    BitVec.getLsbD_extractLsb]
  interval_cases i <;> simp [getElem_of_lowZero h]

theorem cUimmLwsp_encCI {u : BitVec 8} (h : lowZero 2 u = true) (f3 : BitVec 3) (rd : Reg) (q : BitVec 2) :
    cUimmLwsp (half (encCI f3 (encUlwsp u) rd q)) = u := by
  refine BitVec.eq_of_getLsbD_eq fun i hi => ?_
  simp only [cUimmLwsp_eq, half_eq, encCI_eq, encUlwsp_eq, BitVec.getLsbD_cast, BitVec.getLsbD_append,
    BitVec.getLsbD_extractLsb]
  interval_cases i <;> simp [getElem_of_lowZero h]

theorem cUimmLdsp_encCI {u : BitVec 9} (h : lowZero 3 u = true) (f3 : BitVec 3) (rd : Reg) (q : BitVec 2) :
    cUimmLdsp (half (encCI f3 (encUldsp u) rd q)) = u := by
  refine BitVec.eq_of_getLsbD_eq fun i hi => ?_
  simp only [cUimmLdsp_eq, half_eq, encCI_eq, encUldsp_eq, BitVec.getLsbD_cast, BitVec.getLsbD_append,
    BitVec.getLsbD_extractLsb]
  interval_cases i <;> simp [getElem_of_lowZero h]

@[simp] theorem cLow3_encCL (f3 : BitVec 3) (imm : BitVec 5) (rs1 rd : CReg) (q : BitVec 2) :
    cLow3 (half (encCL f3 imm rs1 rd q)) = rd := by
  refine BitVec.eq_of_getLsbD_eq fun i hi => ?_
  simp only [cLow3, half_eq, encCL_eq, BitVec.getLsbD_cast, BitVec.getLsbD_append, BitVec.getLsbD_extractLsb]
  interval_cases i <;> simp

@[simp] theorem cMid3_encCL (f3 : BitVec 3) (imm : BitVec 5) (rs1 rd : CReg) (q : BitVec 2) :
    cMid3 (half (encCL f3 imm rs1 rd q)) = rs1 := by
  refine BitVec.eq_of_getLsbD_eq fun i hi => ?_
  simp only [cMid3, half_eq, encCL_eq, BitVec.getLsbD_cast, BitVec.getLsbD_append, BitVec.getLsbD_extractLsb]
  interval_cases i <;> simp

theorem cUimmW_encCL {u : BitVec 7} (h : lowZero 2 u = true) (f3 : BitVec 3) (rs1 rd : CReg) (q : BitVec 2) :
    cUimmW (half (encCL f3 (encUimmW u) rs1 rd q)) = u := by
  refine BitVec.eq_of_getLsbD_eq fun i hi => ?_
  simp only [cUimmW_eq, half_eq, encCL_eq, encUimmW_eq, BitVec.getLsbD_cast, BitVec.getLsbD_append,
    BitVec.getLsbD_extractLsb]
  interval_cases i <;> simp [getElem_of_lowZero h]

theorem cUimmD_encCL {u : BitVec 8} (h : lowZero 3 u = true) (f3 : BitVec 3) (rs1 rd : CReg) (q : BitVec 2) :
    cUimmD (half (encCL f3 (encUimmD u) rs1 rd q)) = u := by
  refine BitVec.eq_of_getLsbD_eq fun i hi => ?_
  simp only [cUimmD_eq, half_eq, encCL_eq, encUimmD_eq, BitVec.getLsbD_cast, BitVec.getLsbD_append,
    BitVec.getLsbD_extractLsb]
  interval_cases i <;> simp [getElem_of_lowZero h]

@[simp] theorem cMid3_encCShift (f3 : BitVec 3) (f2 : BitVec 2) (imm : BitVec 6) (rd : CReg) (q : BitVec 2) :
    cMid3 (half (encCShift f3 f2 imm rd q)) = rd := by
  refine BitVec.eq_of_getLsbD_eq fun i hi => ?_
  simp only [cMid3, half_eq, encCShift_eq, BitVec.getLsbD_cast, BitVec.getLsbD_append, BitVec.getLsbD_extractLsb]
  interval_cases i <;> simp

@[simp] theorem cImm6_encCShift (f3 : BitVec 3) (f2 : BitVec 2) (imm : BitVec 6) (rd : CReg) (q : BitVec 2) :
    cImm6 (half (encCShift f3 f2 imm rd q)) = imm := by
  refine BitVec.eq_of_getLsbD_eq fun i hi => ?_
  simp only [cImm6_eq, half_eq, encCShift_eq, BitVec.getLsbD_cast, BitVec.getLsbD_append, BitVec.getLsbD_extractLsb]
  interval_cases i <;> simp

@[simp] theorem cMid3_encCBranch (f3 : BitVec 3) (off : BitVec 9) (rs1 : CReg) (q : BitVec 2) :
    cMid3 (half (encCBranch f3 off rs1 q)) = rs1 := by
  refine BitVec.eq_of_getLsbD_eq fun i hi => ?_
  simp only [cMid3, half_eq, encCBranch_eq, BitVec.getLsbD_cast, BitVec.getLsbD_append, BitVec.getLsbD_extractLsb]
  interval_cases i <;> simp

theorem cOffB_encCBranch {off : BitVec 9} (h : lowZero 1 off = true) (f3 : BitVec 3) (rs1 : CReg) (q : BitVec 2) :
    cOffB (half (encCBranch f3 off rs1 q)) = off := by
  refine BitVec.eq_of_getLsbD_eq fun i hi => ?_
  simp only [cOffB_eq, half_eq, encCBranch_eq, BitVec.getLsbD_cast, BitVec.getLsbD_append, BitVec.getLsbD_extractLsb]
  interval_cases i <;> simp [getElem_of_lowZero h]

theorem cOffJ_encOffJ {off : BitVec 12} (h : lowZero 1 off = true) (f3 : BitVec 3) (q : BitVec 2) :
    cOffJ (half (f3 ++ encOffJ off ++ q)) = off := by
  refine BitVec.eq_of_getLsbD_eq fun i hi => ?_
  simp only [cOffJ_eq, half_eq, encOffJ_eq, BitVec.getLsbD_cast, BitVec.getLsbD_append, BitVec.getLsbD_extractLsb]
  interval_cases i <;> simp [getElem_of_lowZero h]

@[simp] theorem cLow3_encCIW (f3 : BitVec 3) (imm : BitVec 8) (rd : CReg) (q : BitVec 2) :
    cLow3 (half (f3 ++ imm ++ rd ++ q)) = rd := by
  refine BitVec.eq_of_getLsbD_eq fun i hi => ?_
  simp only [cLow3, half_eq, BitVec.getLsbD_cast, BitVec.getLsbD_append, BitVec.getLsbD_extractLsb]
  interval_cases i <;> simp

theorem cUimmAddi4spn_enc {u : BitVec 10} (h : lowZero 2 u = true) (f3 : BitVec 3) (rd : CReg) (q : BitVec 2) :
    cUimmAddi4spn (half (f3 ++ encUimmAddi4spn u ++ rd ++ q)) = u := by
  refine BitVec.eq_of_getLsbD_eq fun i hi => ?_
  simp only [cUimmAddi4spn_eq, half_eq, encUimmAddi4spn_eq, BitVec.getLsbD_cast, BitVec.getLsbD_append,
    BitVec.getLsbD_extractLsb]
  interval_cases i <;> simp [getElem_of_lowZero h]

@[simp] theorem cRs2_encCSS (f3 : BitVec 3) (imm : BitVec 6) (rs2 : Reg) (q : BitVec 2) :
    cRs2 (half (f3 ++ imm ++ rs2 ++ q)) = rs2 := by
  refine BitVec.eq_of_getLsbD_eq fun i hi => ?_
  simp only [cRs2, half_eq, BitVec.getLsbD_cast, BitVec.getLsbD_append, BitVec.getLsbD_extractLsb]
  interval_cases i <;> simp

theorem cUimmSwsp_enc {u : BitVec 8} (h : lowZero 2 u = true) (f3 : BitVec 3) (rs2 : Reg) (q : BitVec 2) :
    cUimmSwsp (half (f3 ++ encUswsp u ++ rs2 ++ q)) = u := by
  refine BitVec.eq_of_getLsbD_eq fun i hi => ?_
  simp only [cUimmSwsp_eq, half_eq, encUswsp_eq, BitVec.getLsbD_cast, BitVec.getLsbD_append, BitVec.getLsbD_extractLsb]
  interval_cases i <;> simp [getElem_of_lowZero h]

theorem cUimmSdsp_enc {u : BitVec 9} (h : lowZero 3 u = true) (f3 : BitVec 3) (rs2 : Reg) (q : BitVec 2) :
    cUimmSdsp (half (f3 ++ encUsdsp u ++ rs2 ++ q)) = u := by
  refine BitVec.eq_of_getLsbD_eq fun i hi => ?_
  simp only [cUimmSdsp_eq, half_eq, encUsdsp_eq, BitVec.getLsbD_cast, BitVec.getLsbD_append, BitVec.getLsbD_extractLsb]
  interval_cases i <;> simp [getElem_of_lowZero h]

@[simp] theorem rdOf_encCR (f4 : BitVec 4) (rd rs2 : Reg) (q : BitVec 2) :
    rdOf (half (f4 ++ rd ++ rs2 ++ q)) = rd := by
  refine BitVec.eq_of_getLsbD_eq fun i hi => ?_
  simp only [rdOf, half_eq, BitVec.getLsbD_cast, BitVec.getLsbD_append, BitVec.getLsbD_extractLsb]
  interval_cases i <;> simp

@[simp] theorem cRs2_encCR (f4 : BitVec 4) (rd rs2 : Reg) (q : BitVec 2) :
    cRs2 (half (f4 ++ rd ++ rs2 ++ q)) = rs2 := by
  refine BitVec.eq_of_getLsbD_eq fun i hi => ?_
  simp only [cRs2, half_eq, BitVec.getLsbD_cast, BitVec.getLsbD_append, BitVec.getLsbD_extractLsb]
  interval_cases i <;> simp

@[simp] theorem cMid3_encCA (f6 : BitVec 6) (rd : CReg) (f2 : BitVec 2) (rs2 : CReg) (q : BitVec 2) :
    cMid3 (half (f6 ++ rd ++ f2 ++ rs2 ++ q)) = rd := by
  refine BitVec.eq_of_getLsbD_eq fun i hi => ?_
  simp only [cMid3, half_eq, BitVec.getLsbD_cast, BitVec.getLsbD_append, BitVec.getLsbD_extractLsb]
  interval_cases i <;> simp

@[simp] theorem cLow3_encCA (f6 : BitVec 6) (rd : CReg) (f2 : BitVec 2) (rs2 : CReg) (q : BitVec 2) :
    cLow3 (half (f6 ++ rd ++ f2 ++ rs2 ++ q)) = rs2 := by
  refine BitVec.eq_of_getLsbD_eq fun i hi => ?_
  simp only [cLow3, half_eq, BitVec.getLsbD_cast, BitVec.getLsbD_append, BitVec.getLsbD_extractLsb]
  interval_cases i <;> simp

/-! ### A word is what its mask keeps and the encoding of its fields -/

theorem encR_fill (w : BitVec 32) (f7 : BitVec 7) (f3 : BitVec 3) (op : BitVec 7) :
    encR f7 (rs2Of w) (rs1Of w) f3 (rdOf w) op = (w &&& ~~~0xFE00707F) ||| encR f7 0 0 f3 0 op := by
  refine BitVec.eq_of_getLsbD_eq fun i hi => ?_
  simp only [encR_eq, rs2Of, rs1Of, rdOf, BitVec.getLsbD_and, BitVec.getLsbD_or, BitVec.getLsbD_not, BitVec.getLsbD_cast,
    BitVec.getLsbD_append, BitVec.getLsbD_extractLsb]
  interval_cases i <;> simp

theorem encI_fill (w : BitVec 32) (f3 : BitVec 3) (op : BitVec 7) :
    encI (immI w) (rs1Of w) f3 (rdOf w) op = (w &&& ~~~0x707F) ||| encI 0 0 f3 0 op := by
  refine BitVec.eq_of_getLsbD_eq fun i hi => ?_
  simp only [encI_eq, immI, rs1Of, rdOf, BitVec.getLsbD_and, BitVec.getLsbD_or, BitVec.getLsbD_not, BitVec.getLsbD_cast,
    BitVec.getLsbD_append, BitVec.getLsbD_extractLsb]
  interval_cases i <;> simp

theorem fence_fields (w : BitVec 32) : fmOf w ++ predOf w ++ succOf w = immI w := by
  change (fmOf w ++ predOf w ++ succOf w).cast rfl = immI w
  refine BitVec.eq_of_getLsbD_eq fun i hi => ?_
  simp only [fmOf, predOf, succOf, immI, BitVec.getLsbD_cast, BitVec.getLsbD_append, BitVec.getLsbD_extractLsb]
  interval_cases i <;> simp

theorem encShift_fill (w : BitVec 32) (f6 : BitVec 6) (f3 : BitVec 3) (op : BitVec 7) :
    encShift f6 (shamt6 w) (rs1Of w) f3 (rdOf w) op = (w &&& ~~~0xFC00707F) ||| encShift f6 0 0 f3 0 op := by
  refine BitVec.eq_of_getLsbD_eq fun i hi => ?_
  simp only [encShift_eq, shamt6, rs1Of, rdOf, BitVec.getLsbD_and, BitVec.getLsbD_or, BitVec.getLsbD_not,
    BitVec.getLsbD_cast, BitVec.getLsbD_append, BitVec.getLsbD_extractLsb]
  interval_cases i <;> simp

theorem encS_fill (w : BitVec 32) (f3 : BitVec 3) (op : BitVec 7) :
    encS (immS w) (rs2Of w) (rs1Of w) f3 op = (w &&& ~~~0x707F) ||| encS 0 0 0 f3 op := by
  refine BitVec.eq_of_getLsbD_eq fun i hi => ?_
  simp only [encS_eq, immS_eq, rs1Of, rs2Of, BitVec.getLsbD_and, BitVec.getLsbD_or, BitVec.getLsbD_not,
    BitVec.getLsbD_cast, BitVec.getLsbD_append, BitVec.getLsbD_extractLsb]
  interval_cases i <;> simp

theorem encB_fill (w : BitVec 32) (f3 : BitVec 3) (op : BitVec 7) :
    encB (immB w) (rs2Of w) (rs1Of w) f3 op = (w &&& ~~~0x707F) ||| encB 0 0 0 f3 op := by
  refine BitVec.eq_of_getLsbD_eq fun i hi => ?_
  simp only [encB_eq, immB_eq, rs1Of, rs2Of, BitVec.getLsbD_and, BitVec.getLsbD_or, BitVec.getLsbD_not,
    BitVec.getLsbD_cast, BitVec.getLsbD_append, BitVec.getLsbD_extractLsb]
  interval_cases i <;> simp

theorem encU_fill (w : BitVec 32) (op : BitVec 7) :
    encU (immU w) (rdOf w) op = (w &&& ~~~0x7F) ||| encU 0 0 op := by
  refine BitVec.eq_of_getLsbD_eq fun i hi => ?_
  simp only [encU_eq, immU, rdOf, BitVec.getLsbD_and, BitVec.getLsbD_or, BitVec.getLsbD_not, BitVec.getLsbD_cast,
    BitVec.getLsbD_append, BitVec.getLsbD_extractLsb]
  interval_cases i <;> simp

theorem encJ_fill (w : BitVec 32) (op : BitVec 7) :
    encJ (immJ w) (rdOf w) op = (w &&& ~~~0x7F) ||| encJ 0 0 op := by
  refine BitVec.eq_of_getLsbD_eq fun i hi => ?_
  simp only [encJ_eq, immJ_eq, rdOf, BitVec.getLsbD_and, BitVec.getLsbD_or, BitVec.getLsbD_not, BitVec.getLsbD_cast,
    BitVec.getLsbD_append, BitVec.getLsbD_extractLsb]
  interval_cases i <;> simp

theorem encAmo_fill (w : BitVec 32) (f5 : BitVec 5) (f3 : BitVec 3) (op : BitVec 7) :
    encAmo f5 (aqOf w) (rlOf w) (rs2Of w) (rs1Of w) f3 (rdOf w) op = (w &&& ~~~0xF800707F) ||| encAmo f5 0 0 0 0 f3 0 op := by
  refine BitVec.eq_of_getLsbD_eq fun i hi => ?_
  simp only [encAmo_eq, aqOf, rlOf, rs2Of, rs1Of, rdOf, BitVec.getLsbD_and, BitVec.getLsbD_or, BitVec.getLsbD_not,
    BitVec.getLsbD_cast, BitVec.getLsbD_append, BitVec.getLsbD_extractLsb]
  interval_cases i <;> simp

theorem encAmo_fill_lr (w : BitVec 32) (f5 : BitVec 5) (rs2 : Reg) (f3 : BitVec 3) (op : BitVec 7) :
    encAmo f5 (aqOf w) (rlOf w) rs2 (rs1Of w) f3 (rdOf w) op = (w &&& ~~~0xF9F0707F) ||| encAmo f5 0 0 rs2 0 f3 0 op := by
  refine BitVec.eq_of_getLsbD_eq fun i hi => ?_
  simp only [encAmo_eq, aqOf, rlOf, rs1Of, rdOf, BitVec.getLsbD_and, BitVec.getLsbD_or, BitVec.getLsbD_not,
    BitVec.getLsbD_cast, BitVec.getLsbD_append, BitVec.getLsbD_extractLsb]
  interval_cases i <;> simp

/-- A compressed word is its low half (R141). -/
def lowHalfWord (w : BitVec 32) : BitVec 32 := (w.setWidth 16).setWidth 32

theorem encCI_fill (w : BitVec 32) (f3 : BitVec 3) (q : BitVec 2) :
    half (encCI f3 (cImm6 w) (rdOf w) q) =
      lowHalfWord ((w &&& ~~~0xE003) ||| half (encCI f3 0 0 q)) := by
  refine BitVec.eq_of_getLsbD_eq fun i hi => ?_
  simp only [lowHalfWord, BitVec.getLsbD_setWidth, half_eq, encCI_eq, cImm6_eq, rdOf, BitVec.getLsbD_and,
    BitVec.getLsbD_or, BitVec.getLsbD_not, BitVec.getLsbD_cast, BitVec.getLsbD_append, BitVec.getLsbD_extractLsb]
  interval_cases i <;> simp

theorem encCI_fill_rd (w : BitVec 32) (f3 : BitVec 3) (rd : Reg) (q : BitVec 2) :
    half (encCI f3 (cImm6 w) rd q) =
      lowHalfWord ((w &&& ~~~0xEF83) ||| half (encCI f3 0 rd q)) := by
  refine BitVec.eq_of_getLsbD_eq fun i hi => ?_
  simp only [lowHalfWord, BitVec.getLsbD_setWidth, half_eq, encCI_eq, cImm6_eq, BitVec.getLsbD_and, BitVec.getLsbD_or,
    BitVec.getLsbD_not, BitVec.getLsbD_cast, BitVec.getLsbD_append, BitVec.getLsbD_extractLsb]
  interval_cases i <;> simp

theorem encCI_fill_16sp (w : BitVec 32) (f3 : BitVec 3) (rd : Reg) (q : BitVec 2) :
    half (encCI f3 (encImm16sp (cImm16sp w)) rd q) =
      lowHalfWord ((w &&& ~~~0xEF83) ||| half (encCI f3 0 rd q)) := by
  refine BitVec.eq_of_getLsbD_eq fun i hi => ?_
  simp only [lowHalfWord, BitVec.getLsbD_setWidth, half_eq, encCI_eq, encImm16sp_eq, cImm16sp_eq, BitVec.getLsbD_and,
    BitVec.getLsbD_or, BitVec.getLsbD_not, BitVec.getLsbD_cast, BitVec.getLsbD_append, BitVec.getLsbD_extractLsb]
  interval_cases i <;> simp

theorem encCI_fill_lwsp (w : BitVec 32) (f3 : BitVec 3) (q : BitVec 2) :
    half (encCI f3 (encUlwsp (cUimmLwsp w)) (rdOf w) q) =
      lowHalfWord ((w &&& ~~~0xE003) ||| half (encCI f3 0 0 q)) := by
  refine BitVec.eq_of_getLsbD_eq fun i hi => ?_
  simp only [lowHalfWord, BitVec.getLsbD_setWidth, half_eq, encCI_eq, encUlwsp_eq, cUimmLwsp_eq, rdOf,
    BitVec.getLsbD_and, BitVec.getLsbD_or, BitVec.getLsbD_not, BitVec.getLsbD_cast, BitVec.getLsbD_append, BitVec.getLsbD_extractLsb]
  interval_cases i <;> simp

theorem encCI_fill_ldsp (w : BitVec 32) (f3 : BitVec 3) (q : BitVec 2) :
    half (encCI f3 (encUldsp (cUimmLdsp w)) (rdOf w) q) =
      lowHalfWord ((w &&& ~~~0xE003) ||| half (encCI f3 0 0 q)) := by
  refine BitVec.eq_of_getLsbD_eq fun i hi => ?_
  simp only [lowHalfWord, BitVec.getLsbD_setWidth, half_eq, encCI_eq, encUldsp_eq, cUimmLdsp_eq, rdOf,
    BitVec.getLsbD_and, BitVec.getLsbD_or, BitVec.getLsbD_not, BitVec.getLsbD_cast, BitVec.getLsbD_append, BitVec.getLsbD_extractLsb]
  interval_cases i <;> simp

theorem encCL_fill_w (w : BitVec 32) (f3 : BitVec 3) (q : BitVec 2) :
    half (encCL f3 (encUimmW (cUimmW w)) (cMid3 w) (cLow3 w) q) =
      lowHalfWord ((w &&& ~~~0xE003) ||| half (encCL f3 0 0 0 q)) := by
  refine BitVec.eq_of_getLsbD_eq fun i hi => ?_
  simp only [lowHalfWord, BitVec.getLsbD_setWidth, half_eq, encCL_eq, encUimmW_eq, cUimmW_eq, cMid3, cLow3,
    BitVec.getLsbD_and, BitVec.getLsbD_or, BitVec.getLsbD_not, BitVec.getLsbD_cast, BitVec.getLsbD_append, BitVec.getLsbD_extractLsb]
  interval_cases i <;> simp

theorem encCL_fill_d (w : BitVec 32) (f3 : BitVec 3) (q : BitVec 2) :
    half (encCL f3 (encUimmD (cUimmD w)) (cMid3 w) (cLow3 w) q) =
      lowHalfWord ((w &&& ~~~0xE003) ||| half (encCL f3 0 0 0 q)) := by
  refine BitVec.eq_of_getLsbD_eq fun i hi => ?_
  simp only [lowHalfWord, BitVec.getLsbD_setWidth, half_eq, encCL_eq, encUimmD_eq, cUimmD_eq, cMid3, cLow3,
    BitVec.getLsbD_and, BitVec.getLsbD_or, BitVec.getLsbD_not, BitVec.getLsbD_cast, BitVec.getLsbD_append, BitVec.getLsbD_extractLsb]
  interval_cases i <;> simp

theorem encCShift_fill (w : BitVec 32) (f3 : BitVec 3) (f2 : BitVec 2) (q : BitVec 2) :
    half (encCShift f3 f2 (cImm6 w) (cMid3 w) q) =
      lowHalfWord ((w &&& ~~~0xEC03) ||| half (encCShift f3 f2 0 0 q)) := by
  refine BitVec.eq_of_getLsbD_eq fun i hi => ?_
  simp only [lowHalfWord, BitVec.getLsbD_setWidth, half_eq, encCShift_eq, cImm6_eq, cMid3, BitVec.getLsbD_and,
    BitVec.getLsbD_or, BitVec.getLsbD_not, BitVec.getLsbD_cast, BitVec.getLsbD_append, BitVec.getLsbD_extractLsb]
  interval_cases i <;> simp

theorem encCBranch_fill (w : BitVec 32) (f3 : BitVec 3) (q : BitVec 2) :
    half (encCBranch f3 (cOffB w) (cMid3 w) q) =
      lowHalfWord ((w &&& ~~~0xE003) ||| half (encCBranch f3 0 0 q)) := by
  refine BitVec.eq_of_getLsbD_eq fun i hi => ?_
  simp only [lowHalfWord, BitVec.getLsbD_setWidth, half_eq, encCBranch_eq, cOffB_eq, cMid3, BitVec.getLsbD_and,
    BitVec.getLsbD_or, BitVec.getLsbD_not, BitVec.getLsbD_cast, BitVec.getLsbD_append, BitVec.getLsbD_extractLsb]
  interval_cases i <;> simp

theorem encCJ_fill (w : BitVec 32) (f3 : BitVec 3) (q : BitVec 2) :
    half (f3 ++ encOffJ (cOffJ w) ++ q) =
      lowHalfWord ((w &&& ~~~0xE003) ||| half (f3 ++ 0#11 ++ q)) := by
  refine BitVec.eq_of_getLsbD_eq fun i hi => ?_
  simp only [lowHalfWord, BitVec.getLsbD_setWidth, half_eq, encOffJ_eq, cOffJ_eq, BitVec.getLsbD_and, BitVec.getLsbD_or,
    BitVec.getLsbD_not, BitVec.getLsbD_cast, BitVec.getLsbD_append, BitVec.getLsbD_extractLsb]
  interval_cases i <;> simp

theorem encCIW_fill (w : BitVec 32) (f3 : BitVec 3) (q : BitVec 2) :
    half (f3 ++ encUimmAddi4spn (cUimmAddi4spn w) ++ cLow3 w ++ q) =
      lowHalfWord ((w &&& ~~~0xE003) ||| half (f3 ++ 0#8 ++ 0#3 ++ q)) := by
  refine BitVec.eq_of_getLsbD_eq fun i hi => ?_
  simp only [lowHalfWord, BitVec.getLsbD_setWidth, half_eq, encUimmAddi4spn_eq, cUimmAddi4spn_eq, cLow3,
    BitVec.getLsbD_and, BitVec.getLsbD_or, BitVec.getLsbD_not, BitVec.getLsbD_cast, BitVec.getLsbD_append, BitVec.getLsbD_extractLsb]
  interval_cases i <;> simp

theorem encCSS_fill_w (w : BitVec 32) (f3 : BitVec 3) (q : BitVec 2) :
    half (f3 ++ encUswsp (cUimmSwsp w) ++ cRs2 w ++ q) =
      lowHalfWord ((w &&& ~~~0xE003) ||| half (f3 ++ 0#6 ++ 0#5 ++ q)) := by
  refine BitVec.eq_of_getLsbD_eq fun i hi => ?_
  simp only [lowHalfWord, BitVec.getLsbD_setWidth, half_eq, encUswsp_eq, cUimmSwsp_eq, cRs2, BitVec.getLsbD_and,
    BitVec.getLsbD_or, BitVec.getLsbD_not, BitVec.getLsbD_cast, BitVec.getLsbD_append, BitVec.getLsbD_extractLsb]
  interval_cases i <;> simp

theorem encCSS_fill_d (w : BitVec 32) (f3 : BitVec 3) (q : BitVec 2) :
    half (f3 ++ encUsdsp (cUimmSdsp w) ++ cRs2 w ++ q) =
      lowHalfWord ((w &&& ~~~0xE003) ||| half (f3 ++ 0#6 ++ 0#5 ++ q)) := by
  refine BitVec.eq_of_getLsbD_eq fun i hi => ?_
  simp only [lowHalfWord, BitVec.getLsbD_setWidth, half_eq, encUsdsp_eq, cUimmSdsp_eq, cRs2, BitVec.getLsbD_and,
    BitVec.getLsbD_or, BitVec.getLsbD_not, BitVec.getLsbD_cast, BitVec.getLsbD_append, BitVec.getLsbD_extractLsb]
  interval_cases i <;> simp

theorem encCR_fill (w : BitVec 32) (f4 : BitVec 4) (q : BitVec 2) :
    half (f4 ++ rdOf w ++ cRs2 w ++ q) =
      lowHalfWord ((w &&& ~~~0xF003) ||| half (f4 ++ 0#5 ++ 0#5 ++ q)) := by
  refine BitVec.eq_of_getLsbD_eq fun i hi => ?_
  simp only [lowHalfWord, BitVec.getLsbD_setWidth, half_eq, rdOf, cRs2, BitVec.getLsbD_and, BitVec.getLsbD_or,
    BitVec.getLsbD_not, BitVec.getLsbD_cast, BitVec.getLsbD_append, BitVec.getLsbD_extractLsb]
  interval_cases i <;> simp

theorem encCR_fill_rs2 (w : BitVec 32) (f4 : BitVec 4) (rs2 : Reg) (q : BitVec 2) :
    half (f4 ++ rdOf w ++ rs2 ++ q) =
      lowHalfWord ((w &&& ~~~0xF07F) ||| half (f4 ++ 0#5 ++ rs2 ++ q)) := by
  refine BitVec.eq_of_getLsbD_eq fun i hi => ?_
  simp only [lowHalfWord, BitVec.getLsbD_setWidth, half_eq, rdOf, BitVec.getLsbD_and, BitVec.getLsbD_or,
    BitVec.getLsbD_not, BitVec.getLsbD_cast, BitVec.getLsbD_append, BitVec.getLsbD_extractLsb]
  interval_cases i <;> simp

theorem encCA_fill (w : BitVec 32) (f6 : BitVec 6) (f2 : BitVec 2) (q : BitVec 2) :
    half (f6 ++ cMid3 w ++ f2 ++ cLow3 w ++ q) =
      lowHalfWord ((w &&& ~~~0xFC63) ||| half (f6 ++ 0#3 ++ f2 ++ 0#3 ++ q)) := by
  refine BitVec.eq_of_getLsbD_eq fun i hi => ?_
  simp only [lowHalfWord, BitVec.getLsbD_setWidth, half_eq, cMid3, cLow3, BitVec.getLsbD_and, BitVec.getLsbD_or,
    BitVec.getLsbD_not, BitVec.getLsbD_cast, BitVec.getLsbD_append, BitVec.getLsbD_extractLsb]
  interval_cases i <;> simp

/-! ### The field values a row excludes ("unknown_when") -/

/-- Bits [11:7]. -/
theorem and_rdField (w : BitVec 32) : w &&& 0x0F80 = half (encCI 0 0 (rdOf w) 0) := by
  refine BitVec.eq_of_getLsbD_eq fun i hi => ?_
  simp only [half_eq, encCI_eq, rdOf, BitVec.getLsbD_and, BitVec.getLsbD_cast, BitVec.getLsbD_append,
    BitVec.getLsbD_extractLsb]
  interval_cases i <;> simp

/-- Bit 12 and bits [6:2]. -/
theorem and_imm6Field (w : BitVec 32) : w &&& 0x107C = half (encCI 0 (cImm6 w) 0 0) := by
  refine BitVec.eq_of_getLsbD_eq fun i hi => ?_
  simp only [half_eq, encCI_eq, cImm6_eq, BitVec.getLsbD_and, BitVec.getLsbD_cast, BitVec.getLsbD_append,
    BitVec.getLsbD_extractLsb]
  interval_cases i <;> simp

/-- Bit 12 and bits [6:2] in the order of C.ADDI16SP. -/
theorem and_imm16spField (w : BitVec 32) : w &&& 0x107C = half (encCI 0 (encImm16sp (cImm16sp w)) 0 0) := by
  refine BitVec.eq_of_getLsbD_eq fun i hi => ?_
  simp only [half_eq, encCI_eq, encImm16sp_eq, cImm16sp_eq, BitVec.getLsbD_and, BitVec.getLsbD_cast,
    BitVec.getLsbD_append, BitVec.getLsbD_extractLsb]
  interval_cases i <;> simp

/-- Bits [6:2]. -/
theorem and_rs2Field (w : BitVec 32) : w &&& 0x007C = half (0#4 ++ 0#5 ++ cRs2 w ++ 0#2) := by
  refine BitVec.eq_of_getLsbD_eq fun i hi => ?_
  simp only [half_eq, cRs2, BitVec.getLsbD_and, BitVec.getLsbD_cast, BitVec.getLsbD_append, BitVec.getLsbD_extractLsb]
  interval_cases i <;> simp

/-- Bits [12:5]. -/
theorem and_addi4spnField (w : BitVec 32) :
    w &&& 0x1FE0 = half (0#3 ++ encUimmAddi4spn (cUimmAddi4spn w) ++ 0#3 ++ 0#2) := by
  refine BitVec.eq_of_getLsbD_eq fun i hi => ?_
  simp only [half_eq, encUimmAddi4spn_eq, cUimmAddi4spn_eq, BitVec.getLsbD_and, BitVec.getLsbD_cast,
    BitVec.getLsbD_append, BitVec.getLsbD_extractLsb]
  interval_cases i <;> simp

/-! ### A word that a row accepts is an encoding of the instruction it builds -/

/-- What EncodeOfDecode says of the words one row accepts. -/
def Row.Sound (r : Row) : Prop :=
  ∀ (xl : XLen) (w : BitVec 32), r.accepts xl w = true →
    (r.build w).wf xl = true ∧
      encode (r.build w) = if isCompressedWord w = true then lowHalfWord w else w

/-- A word is the bits outside a mask and the bits the mask keeps. -/
theorem eq_or_of_mask {w m m' v : BitVec 32} (hm : m &&& m' = m') (hv : v &&& m' = v) (h : w &&& m = v) :
    (w &&& ~~~m') ||| v = w := by
  have hw : w &&& m' = v := by rw [← hm, ← BitVec.and_assoc, h, hv]
  rw [← hw, ← BitVec.and_or_distrib_left, BitVec.or_comm, BitVec.or_not_self, BitVec.and_allOnes]

theorem isCompressedWord_of_mask {w m v : BitVec 32} (hm : m.extractLsb 1 0 = 3#2) (h : w &&& m = v) :
    isCompressedWord w = isCompressedWord v := by
  have hlow : w.extractLsb 1 0 = v.extractLsb 1 0 := by
    rw [← h, BitVec.extractLsb_and, hm]
    exact (BitVec.and_allOnes ..).symm
  rw [isCompressedWord, isCompressedWord, hlow]

/-- A row is of one XLEN or of both. -/
theorem getD_xlen {x : Option XLen} {xl : XLen} (h : x = none ∨ x = some xl) :
    x.getD .rv32 = xl ∨ x.getD .rv64 = xl := by
  rcases h with rfl | rfl
  · cases xl <;> simp
  · exact .inl rfl

/-- What the two kinds of rows have to show: the encoding of what the row builds, the bits of a mask `m'` filled in, and that
what it builds is well formed at the row's XLENs. -/
theorem Row.sound_of {r : Row} (m' : BitVec 32) (hlow : r.mask.extractLsb 1 0 = 3#2) (hm : r.mask &&& m' = m')
    (hv : r.value &&& m' = r.value)
    (henc : ∀ w, encode (r.build w) =
      if isCompressedWord r.value = true then lowHalfWord ((w &&& ~~~m') ||| r.value) else (w &&& ~~~m') ||| r.value)
    (hwf : ∀ w, w &&& r.mask = r.value → (∀ e ∈ r.excluded, w &&& e.1 ≠ e.2) →
      (r.build w).wf (r.xlen.getD .rv32) = true ∧ (r.build w).wf (r.xlen.getD .rv64) = true) : r.Sound := by
  intro xl w hacc
  obtain ⟨hx, hmask, hex⟩ := Row.accepts_iff.1 hacc
  obtain ⟨h32, h64⟩ := hwf w hmask hex
  refine ⟨?_, ?_⟩
  · rcases getD_xlen hx with he | he
    · rwa [he] at h32
    · rwa [he] at h64
  · rw [henc, isCompressedWord_of_mask hlow hmask, eq_or_of_mask hm hv hmask]

/-! ### Operands that a row's word can carry (WellFormed.lean) -/

theorem lowZero_append_zero {n k w : Nat} (h : k + n = w) (x : BitVec k) : lowZero n ((x ++ 0#n).cast h) = true := by
  subst h
  rw [lowZero, beq_iff_eq]
  exact BitVec.setWidth_append_eq_right

/-- A bit that a mask holds is the one of the match value. -/
theorem getLsbD_of_mask {w m v : BitVec 32} (h : w &&& m = v) {k : Nat} (hm : m.getLsbD k = true) :
    w.getLsbD k = v.getLsbD k := by
  rw [← h, BitVec.getLsbD_and, hm, Bool.and_true]

/-- R154: the mask of an RV32 shift row holds bit 25, which is bit 5 of the shift amount. -/
theorem shamtOk_shamt6 {w m v : BitVec 32} (h : w &&& m = v) (hm : m.getLsbD 25 = true) (hv : v.getLsbD 25 = false) :
    shamtOk .rv32 (shamt6 w) = true := by
  have hbit := (getLsbD_of_mask h hm).trans hv
  rw [shamtOk_rv32_iff]
  simpa [shamt6] using hbit

theorem shamtOk_cImm6 {w m v : BitVec 32} (h : w &&& m = v) (hm : m.getLsbD 12 = true) (hv : v.getLsbD 12 = false) :
    shamtOk .rv32 (cImm6 w) = true := by
  have hbit := (getLsbD_of_mask h hm).trans hv
  rw [shamtOk_rv32_iff, ← BitVec.getLsbD_eq_getElem, cImm6_eq, BitVec.getLsbD_cast, BitVec.getLsbD_append]
  simpa using hbit

theorem and_rdField_eq_iff {w : BitVec 32} {r : Reg} : w &&& 0x0F80 = half (encCI 0 0 r 0) ↔ rdOf w = r := by
  rw [and_rdField]
  exact ⟨fun h => by simpa using congrArg rdOf h, fun h => by rw [h]⟩

theorem and_imm6Field_eq_zero_iff {w : BitVec 32} : w &&& 0x107C = 0 ↔ cImm6 w = 0 := by
  rw [and_imm6Field]
  exact ⟨fun h => (cImm6_encCI ..).symm.trans (congrArg cImm6 h), fun h => by rw [h]; rfl⟩

theorem and_rs2Field_eq_zero_iff {w : BitVec 32} : w &&& 0x007C = 0 ↔ cRs2 w = 0 := by
  rw [and_rs2Field]
  exact ⟨fun h => (cRs2_encCR ..).symm.trans (congrArg cRs2 h), fun h => by rw [h]; rfl⟩

theorem and_addi4spnField_eq_zero_iff {w : BitVec 32} : w &&& 0x1FE0 = 0 ↔ cUimmAddi4spn w = 0 := by
  rw [and_addi4spnField]
  have hlow : lowZero 2 (cUimmAddi4spn w) = true := lowZero_append_zero rfl _
  exact ⟨fun h => (cUimmAddi4spn_enc hlow ..).symm.trans (congrArg cUimmAddi4spn h), fun h => by rw [h]; rfl⟩

theorem and_imm16spField_eq_zero_iff {w : BitVec 32} : w &&& 0x107C = 0 ↔ cImm16sp w = 0 := by
  rw [and_imm16spField]
  have hlow : lowZero 4 (cImm16sp w) = true := lowZero_append_zero rfl _
  exact ⟨fun h => (cImm16sp_encCI hlow ..).symm.trans (congrArg cImm16sp h), fun h => by rw [h]; rfl⟩

/-- A row of both XLENs, or of one, whose operands' condition does not depend on the XLEN. -/
theorem wf_of_operandsOk {i : Instr} {xl xl' : XLen} (hx : i.inXLen xl = true) (hx' : i.inXLen xl' = true)
    (h : i.operandsOk xl = true) (h' : i.operandsOk xl' = true) : i.wf xl = true ∧ i.wf xl' = true :=
  ⟨Bool.and_eq_true_iff.2 ⟨hx, h⟩, Bool.and_eq_true_iff.2 ⟨hx', h'⟩⟩

/-! ### The rows, table by table -/

theorem rowsUpper_sound : rowsUpper.Forall Row.Sound := by
  simp only [rowsUpper, List.Forall]
  and_intros <;> exact Row.sound_of 0x7F rfl rfl rfl (fun w => encU_fill ..) fun _ _ _ => ⟨rfl, rfl⟩

theorem rowsControl_sound : rowsControl.Forall Row.Sound := by
  simp only [rowsControl, List.Forall]
  refine ⟨?_, ?_, ?_⟩
  · exact Row.sound_of 0x7F rfl rfl rfl (fun w => encJ_fill ..) fun _ _ _ =>
      ⟨lowZero_append_zero rfl _, lowZero_append_zero rfl _⟩
  · exact Row.sound_of 0x707F rfl rfl rfl (fun w => encI_fill ..) fun _ _ _ => ⟨rfl, rfl⟩
  · and_intros <;> exact Row.sound_of 0x707F rfl rfl rfl (fun w => encB_fill ..) fun _ _ _ =>
      ⟨lowZero_append_zero rfl _, lowZero_append_zero rfl _⟩

theorem rowsLoadStore_sound : rowsLoadStore.Forall Row.Sound := by
  simp only [rowsLoadStore, List.Forall]
  refine ⟨?_, ?_, ?_, ?_, ?_, ?_, ?_, ?_⟩
  case refine_8 =>
    and_intros <;> exact Row.sound_of 0x707F rfl rfl rfl (fun w => encS_fill ..) fun _ _ _ => ⟨rfl, rfl⟩
  all_goals exact Row.sound_of 0x707F rfl rfl rfl (fun w => encI_fill ..) fun _ _ _ => ⟨rfl, rfl⟩

theorem rowsOpImm_sound : rowsOpImm.Forall Row.Sound := by
  simp only [rowsOpImm, List.Forall]
  refine ⟨?_, ?_, ?_, ?_, ?_, ?_, ?_, ?_, ?_, ?_, ?_, ?_⟩
  case refine_7 | refine_9 | refine_11 =>
    exact Row.sound_of 0xFC00707F rfl rfl rfl (fun w => encShift_fill ..) fun _ h _ =>
      ⟨shamtOk_shamt6 h rfl rfl, shamtOk_shamt6 h rfl rfl⟩
  case refine_8 | refine_10 | refine_12 =>
    exact Row.sound_of 0xFC00707F rfl rfl rfl (fun w => encShift_fill ..) fun _ _ _ => ⟨rfl, rfl⟩
  all_goals exact Row.sound_of 0x707F rfl rfl rfl (fun w => encI_fill ..) fun _ _ _ => ⟨rfl, rfl⟩

theorem rowsOp_sound : rowsOp.Forall Row.Sound := by
  simp only [rowsOp, List.Forall]
  and_intros <;> exact Row.sound_of 0xFE00707F rfl rfl rfl (fun w => encR_fill ..) fun _ _ _ => ⟨rfl, rfl⟩

theorem rowsWord_sound : rowsWord.Forall Row.Sound := by
  simp only [rowsWord, List.Forall]
  refine ⟨Row.sound_of 0x707F rfl rfl rfl (fun w => encI_fill ..) fun _ _ _ => ⟨rfl, rfl⟩, ?_⟩
  and_intros <;> exact Row.sound_of 0xFE00707F rfl rfl rfl (fun w => encR_fill ..) fun _ _ _ => ⟨rfl, rfl⟩

theorem rowsMulDiv_sound : rowsMulDiv.Forall Row.Sound := by
  simp only [rowsMulDiv, List.Forall]
  and_intros <;> exact Row.sound_of 0xFE00707F rfl rfl rfl (fun w => encR_fill ..) fun _ _ _ => ⟨rfl, rfl⟩

theorem rowsAtomicW_sound : rowsAtomicW.Forall Row.Sound := by
  simp only [rowsAtomicW, List.Forall]
  refine ⟨Row.sound_of 0xF9F0707F rfl rfl rfl (fun w => encAmo_fill_lr ..) fun _ _ _ => ⟨rfl, rfl⟩, ?_⟩
  and_intros <;> exact Row.sound_of 0xF800707F rfl rfl rfl (fun w => encAmo_fill ..) fun _ _ _ => ⟨rfl, rfl⟩

theorem rowsAtomicD_sound : rowsAtomicD.Forall Row.Sound := by
  simp only [rowsAtomicD, List.Forall]
  refine ⟨Row.sound_of 0xF9F0707F rfl rfl rfl (fun w => encAmo_fill_lr ..) fun _ _ _ => ⟨rfl, rfl⟩, ?_⟩
  and_intros <;> exact Row.sound_of 0xF800707F rfl rfl rfl (fun w => encAmo_fill ..) fun _ _ _ => ⟨rfl, rfl⟩

/-- A row that holds every bit takes one word only. -/
theorem and_not_allOnes_or (w v : BitVec 32) : (w &&& ~~~0xFFFFFFFF) ||| v = v := by simp

theorem rowsSystem_sound : rowsSystem.Forall Row.Sound := by
  simp only [rowsSystem, List.Forall]
  refine ⟨?_, ?_, ?_, ?_, ?_, ?_, ?_, ?_, ?_, ?_, ?_, ?_⟩
  case refine_7 | refine_8 | refine_9 | refine_10 =>
    exact Row.sound_of 0xFFFFFFFF rfl rfl rfl (fun w => (and_not_allOnes_or w _).symm) fun _ _ _ => ⟨rfl, rfl⟩
  case refine_11 =>
    exact Row.sound_of 0x707F rfl rfl rfl
      (fun w => (congrArg (fun imm => encI imm (rs1Of w) 0 (rdOf w) 15) (fence_fields w)).trans (encI_fill ..))
      fun _ _ _ => ⟨rfl, rfl⟩
  all_goals exact Row.sound_of 0x707F rfl rfl rfl (fun w => encI_fill ..) fun _ _ _ => ⟨rfl, rfl⟩

theorem rowsC0_sound : rowsC0.Forall Row.Sound := by
  simp only [rowsC0, List.Forall]
  refine ⟨?_, ?_, ?_, ?_, ?_⟩
  case refine_1 =>
    refine Row.sound_of 0xE003 rfl rfl rfl (fun w => encCIW_fill ..) fun w _ h => ?_
    have hok : (lowZero 2 (cUimmAddi4spn w) && cUimmAddi4spn w != 0) = true :=
      Bool.and_eq_true_iff.2 ⟨lowZero_append_zero rfl _, bne_iff_ne.2 (mt and_addi4spnField_eq_zero_iff.2 (h _ (List.mem_singleton_self _)))⟩
    exact wf_of_operandsOk rfl rfl hok hok
  case refine_2 | refine_4 =>
    exact Row.sound_of 0xE003 rfl rfl rfl (fun w => encCL_fill_w ..) fun _ _ _ =>
      ⟨lowZero_append_zero rfl _, lowZero_append_zero rfl _⟩
  case refine_3 | refine_5 =>
    exact Row.sound_of 0xE003 rfl rfl rfl (fun w => encCL_fill_d ..) fun _ _ _ =>
      ⟨lowZero_append_zero rfl _, lowZero_append_zero rfl _⟩

theorem rowsC1_sound : rowsC1.Forall Row.Sound := by
  simp only [rowsC1, List.Forall]
  refine ⟨?cNop, ?cAddi, ?cJal, ?cAddiw, ?cLi, ?cAddi16sp, ?cLui, ?cSrli32, ?cSrli64, ?cSrai32, ?cSrai64, ?cAndi, ?cSub,
    ?cXor, ?cOr, ?cAnd, ?cSubw, ?cAddw, ?cJ, ?cBeqz, ?cBnez⟩
  case cNop => exact Row.sound_of 0xEF83 rfl rfl rfl (fun w => encCI_fill_rd ..) fun _ _ _ => ⟨rfl, rfl⟩
  case cAddi | cAddiw =>
    refine Row.sound_of 0xE003 rfl rfl rfl (fun w => encCI_fill ..) fun w _ h => ?_
    have hrd : (rdOf w != 0) = true := bne_iff_ne.2 (mt and_rdField_eq_iff.2 (h _ (List.mem_singleton_self _)))
    exact ⟨hrd, hrd⟩
  case cJal | cJ =>
    exact Row.sound_of 0xE003 rfl rfl rfl (fun w => encCJ_fill ..) fun _ _ _ =>
      ⟨lowZero_append_zero rfl _, lowZero_append_zero rfl _⟩
  case cLi => exact Row.sound_of 0xE003 rfl rfl rfl (fun w => encCI_fill ..) fun _ _ _ => ⟨rfl, rfl⟩
  case cAddi16sp =>
    refine Row.sound_of 0xEF83 rfl rfl rfl (fun w => encCI_fill_16sp ..) fun w _ h => ?_
    have hok : (lowZero 4 (cImm16sp w) && cImm16sp w != 0) = true :=
      Bool.and_eq_true_iff.2 ⟨lowZero_append_zero rfl _, bne_iff_ne.2 (mt and_imm16spField_eq_zero_iff.2 (h _ (List.mem_singleton_self _)))⟩
    exact wf_of_operandsOk rfl rfl hok hok
  case cLui =>
    refine Row.sound_of 0xE003 rfl rfl rfl (fun w => encCI_fill ..) fun w _ h => ?_
    have hok : (rdOf w != 2 && cImm6 w != 0) = true :=
      Bool.and_eq_true_iff.2 ⟨bne_iff_ne.2 (mt and_rdField_eq_iff.2 (h _ (List.mem_cons_self ..))),
        bne_iff_ne.2 (mt and_imm6Field_eq_zero_iff.2 (h _ (List.mem_cons_of_mem _ (List.mem_singleton_self _))))⟩
    exact wf_of_operandsOk rfl rfl hok hok
  case cSrli32 | cSrai32 =>
    exact Row.sound_of 0xEC03 rfl rfl rfl (fun w => encCShift_fill ..) fun _ h _ =>
      ⟨shamtOk_cImm6 h rfl rfl, shamtOk_cImm6 h rfl rfl⟩
  case cSrli64 | cSrai64 | cAndi =>
    exact Row.sound_of 0xEC03 rfl rfl rfl (fun w => encCShift_fill ..) fun _ _ _ => ⟨rfl, rfl⟩
  case cSub | cXor | cOr | cAnd | cSubw | cAddw =>
    exact Row.sound_of 0xFC63 rfl rfl rfl (fun w => encCA_fill ..) fun _ _ _ => ⟨rfl, rfl⟩
  case cBeqz | cBnez =>
    exact Row.sound_of 0xE003 rfl rfl rfl (fun w => encCBranch_fill ..) fun _ _ _ =>
      ⟨lowZero_append_zero rfl _, lowZero_append_zero rfl _⟩

/-- The one compressed row that holds every bit. -/
theorem lowHalfWord_fill (w : BitVec 32) (h : BitVec 16) : half h = lowHalfWord ((w &&& ~~~0xFFFF) ||| half h) := by
  refine BitVec.eq_of_getLsbD_eq fun i hi => ?_
  simp only [lowHalfWord, BitVec.getLsbD_setWidth, half_eq, BitVec.getLsbD_and, BitVec.getLsbD_or, BitVec.getLsbD_not,
    BitVec.getLsbD_cast, BitVec.getLsbD_append]
  interval_cases i <;> simp

theorem rowsC2_sound : rowsC2.Forall Row.Sound := by
  simp only [rowsC2, List.Forall]
  refine ⟨?cSlli32, ?cSlli64, ?cLwsp, ?cLdsp, ?cJr, ?cMv, ?cEbreak, ?cJalr, ?cAdd, ?cSwsp, ?cSdsp⟩
  case cSlli32 =>
    exact Row.sound_of 0xE003 rfl rfl rfl (fun w => encCI_fill ..) fun _ h _ =>
      ⟨shamtOk_cImm6 h rfl rfl, shamtOk_cImm6 h rfl rfl⟩
  case cSlli64 => exact Row.sound_of 0xE003 rfl rfl rfl (fun w => encCI_fill ..) fun _ _ _ => ⟨rfl, rfl⟩
  case cLwsp =>
    refine Row.sound_of 0xE003 rfl rfl rfl (fun w => encCI_fill_lwsp ..) fun w _ h => ?_
    have hok : (rdOf w != 0 && lowZero 2 (cUimmLwsp w)) = true :=
      Bool.and_eq_true_iff.2 ⟨bne_iff_ne.2 (mt and_rdField_eq_iff.2 (h _ (List.mem_singleton_self _))), lowZero_append_zero rfl _⟩
    exact wf_of_operandsOk rfl rfl hok hok
  case cLdsp =>
    refine Row.sound_of 0xE003 rfl rfl rfl (fun w => encCI_fill_ldsp ..) fun w _ h => ?_
    have hok : (rdOf w != 0 && lowZero 3 (cUimmLdsp w)) = true :=
      Bool.and_eq_true_iff.2 ⟨bne_iff_ne.2 (mt and_rdField_eq_iff.2 (h _ (List.mem_singleton_self _))), lowZero_append_zero rfl _⟩
    exact wf_of_operandsOk rfl rfl hok hok
  case cJr | cJalr =>
    refine Row.sound_of 0xF07F rfl rfl rfl (fun w => encCR_fill_rs2 ..) fun w _ h => ?_
    have hrd : (rdOf w != 0) = true := bne_iff_ne.2 (mt and_rdField_eq_iff.2 (h _ (List.mem_singleton_self _)))
    exact ⟨hrd, hrd⟩
  case cMv | cAdd =>
    refine Row.sound_of 0xF003 rfl rfl rfl (fun w => encCR_fill ..) fun w _ h => ?_
    have hrs2 : (cRs2 w != 0) = true := bne_iff_ne.2 (mt and_rs2Field_eq_zero_iff.2 (h _ (List.mem_singleton_self _)))
    exact ⟨hrs2, hrs2⟩
  case cEbreak => exact Row.sound_of 0xFFFF rfl rfl rfl (fun w => lowHalfWord_fill w 0x9002) fun _ _ _ => ⟨rfl, rfl⟩
  case cSwsp =>
    exact Row.sound_of 0xE003 rfl rfl rfl (fun w => encCSS_fill_w ..) fun _ _ _ =>
      ⟨lowZero_append_zero rfl _, lowZero_append_zero rfl _⟩
  case cSdsp =>
    exact Row.sound_of 0xE003 rfl rfl rfl (fun w => encCSS_fill_d ..) fun _ _ _ =>
      ⟨lowZero_append_zero rfl _, lowZero_append_zero rfl _⟩

theorem rows_sound : ∀ r ∈ rows, r.Sound := by
  simp only [rows, List.forall_mem_append, ← List.forall_iff_forall_mem]
  exact ⟨⟨⟨⟨⟨⟨⟨⟨⟨⟨⟨⟨rowsUpper_sound, rowsControl_sound⟩, rowsLoadStore_sound⟩, rowsOpImm_sound⟩, rowsOp_sound⟩,
    rowsWord_sound⟩, rowsMulDiv_sound⟩, rowsAtomicW_sound⟩, rowsAtomicD_sound⟩, rowsSystem_sound⟩, rowsC0_sound⟩,
    rowsC1_sound⟩, rowsC2_sound⟩

/-- Settles O4. The word is accepted by a row, and every row is sound. -/
theorem encodeOfDecode : Obligations.EncodeOfDecode := by
  intro xl w i h
  obtain ⟨r, hr, hacc, rfl⟩ := exists_row_of_decode h
  obtain ⟨hwf, henc⟩ := rows_sound r hr xl w hacc
  exact ⟨hwf, fun hw => by rw [henc, if_neg (by simp [hw])], fun hw => by rw [henc, if_pos hw]; rfl⟩

/-! ### Every well-formed instruction has a row that accepts its encoding -/

/-- A row that stands in the table at position `k`, counted from 0, and accepts `w` is what the decoder finds. -/
theorem decode_row (k : Nat) {r : Row} (hk : rows[k]? = some r) {xl : XLen} {w : BitVec 32} {i : Instr}
    (hx : r.xlen = none ∨ r.xlen = some xl) (hm : w &&& r.mask = r.value) (hex : ∀ e ∈ r.excluded, w &&& e.1 ≠ e.2)
    (hb : r.build w = i) : decode xl w = .ok i := by
  rw [← hb]
  exact decode_of_accepts (List.mem_of_getElem? hk) (Row.accepts_iff.2 ⟨hx, hm, hex⟩)

/-- The condition of a row of one XLEN (R154). -/
theorem some_of_beq {x xl : XLen} {ok : Bool} (h : (xl == x && ok) = true) : some x = some xl := by
  simp only [Bool.and_eq_true, beq_iff_eq] at h
  rw [h.1]

/-- Settles O3. One case per instruction: its row, the mask on its encoding, and the fields the row reads back. -/
theorem decodeOfEncode : Obligations.DecodeOfEncode := by
  intro xl i h
  cases i with
  | lui rd imm20 => exact decode_row 0 rfl (.inl rfl) (encU_mask ..) nofun (by simp [encode])
  | auipc rd imm20 => exact decode_row 1 rfl (.inl rfl) (encU_mask ..) nofun (by simp [encode])
  | jal rd off => exact decode_row 2 rfl (.inl rfl) (encJ_mask ..) nofun (by simp [encode, immJ_encJ h])
  | jalr rd rs1 imm => exact decode_row 3 rfl (.inl rfl) (encI_mask ..) nofun (by simp [encode])
  | beq rs1 rs2 off => exact decode_row 4 rfl (.inl rfl) (encB_mask ..) nofun (by simp [encode, immB_encB h])
  | bne rs1 rs2 off => exact decode_row 5 rfl (.inl rfl) (encB_mask ..) nofun (by simp [encode, immB_encB h])
  | blt rs1 rs2 off => exact decode_row 6 rfl (.inl rfl) (encB_mask ..) nofun (by simp [encode, immB_encB h])
  | bge rs1 rs2 off => exact decode_row 7 rfl (.inl rfl) (encB_mask ..) nofun (by simp [encode, immB_encB h])
  | bltu rs1 rs2 off => exact decode_row 8 rfl (.inl rfl) (encB_mask ..) nofun (by simp [encode, immB_encB h])
  | bgeu rs1 rs2 off => exact decode_row 9 rfl (.inl rfl) (encB_mask ..) nofun (by simp [encode, immB_encB h])
  | lb rd rs1 imm => exact decode_row 10 rfl (.inl rfl) (encI_mask ..) nofun (by simp [encode])
  | lh rd rs1 imm => exact decode_row 11 rfl (.inl rfl) (encI_mask ..) nofun (by simp [encode])
  | lw rd rs1 imm => exact decode_row 12 rfl (.inl rfl) (encI_mask ..) nofun (by simp [encode])
  | ld rd rs1 imm => exact decode_row 13 rfl (.inr (some_of_beq h)) (encI_mask ..) nofun (by simp [encode])
  | lbu rd rs1 imm => exact decode_row 14 rfl (.inl rfl) (encI_mask ..) nofun (by simp [encode])
  | lhu rd rs1 imm => exact decode_row 15 rfl (.inl rfl) (encI_mask ..) nofun (by simp [encode])
  | lwu rd rs1 imm => exact decode_row 16 rfl (.inr (some_of_beq h)) (encI_mask ..) nofun (by simp [encode])
  | sb rs1 rs2 imm => exact decode_row 17 rfl (.inl rfl) (encS_mask ..) nofun (by simp [encode])
  | sh rs1 rs2 imm => exact decode_row 18 rfl (.inl rfl) (encS_mask ..) nofun (by simp [encode])
  | sw rs1 rs2 imm => exact decode_row 19 rfl (.inl rfl) (encS_mask ..) nofun (by simp [encode])
  | sd rs1 rs2 imm => exact decode_row 20 rfl (.inr (some_of_beq h)) (encS_mask ..) nofun (by simp [encode])
  | addi rd rs1 imm => exact decode_row 21 rfl (.inl rfl) (encI_mask ..) nofun (by simp [encode])
  | slti rd rs1 imm => exact decode_row 22 rfl (.inl rfl) (encI_mask ..) nofun (by simp [encode])
  | sltiu rd rs1 imm => exact decode_row 23 rfl (.inl rfl) (encI_mask ..) nofun (by simp [encode])
  | xori rd rs1 imm => exact decode_row 24 rfl (.inl rfl) (encI_mask ..) nofun (by simp [encode])
  | ori rd rs1 imm => exact decode_row 25 rfl (.inl rfl) (encI_mask ..) nofun (by simp [encode])
  | andi rd rs1 imm => exact decode_row 26 rfl (.inl rfl) (encI_mask ..) nofun (by simp [encode])
  | slli rd rs1 shamt =>
    cases xl with
    | rv32 => exact decode_row 27 rfl (.inr rfl) (encShift_mask_rv32 _ h ..) nofun (by simp [encode])
    | rv64 => exact decode_row 28 rfl (.inr rfl) (encShift_mask ..) nofun (by simp [encode])
  | srli rd rs1 shamt =>
    cases xl with
    | rv32 => exact decode_row 29 rfl (.inr rfl) (encShift_mask_rv32 _ h ..) nofun (by simp [encode])
    | rv64 => exact decode_row 30 rfl (.inr rfl) (encShift_mask ..) nofun (by simp [encode])
  | srai rd rs1 shamt =>
    cases xl with
    | rv32 => exact decode_row 31 rfl (.inr rfl) (encShift_mask_rv32 _ h ..) nofun (by simp [encode])
    | rv64 => exact decode_row 32 rfl (.inr rfl) (encShift_mask ..) nofun (by simp [encode])
  | add rd rs1 rs2 => exact decode_row 33 rfl (.inl rfl) (encR_mask ..) nofun (by simp [encode])
  | sub rd rs1 rs2 => exact decode_row 34 rfl (.inl rfl) (encR_mask ..) nofun (by simp [encode])
  | sll rd rs1 rs2 => exact decode_row 35 rfl (.inl rfl) (encR_mask ..) nofun (by simp [encode])
  | slt rd rs1 rs2 => exact decode_row 36 rfl (.inl rfl) (encR_mask ..) nofun (by simp [encode])
  | sltu rd rs1 rs2 => exact decode_row 37 rfl (.inl rfl) (encR_mask ..) nofun (by simp [encode])
  | xor rd rs1 rs2 => exact decode_row 38 rfl (.inl rfl) (encR_mask ..) nofun (by simp [encode])
  | srl rd rs1 rs2 => exact decode_row 39 rfl (.inl rfl) (encR_mask ..) nofun (by simp [encode])
  | sra rd rs1 rs2 => exact decode_row 40 rfl (.inl rfl) (encR_mask ..) nofun (by simp [encode])
  | or rd rs1 rs2 => exact decode_row 41 rfl (.inl rfl) (encR_mask ..) nofun (by simp [encode])
  | and rd rs1 rs2 => exact decode_row 42 rfl (.inl rfl) (encR_mask ..) nofun (by simp [encode])
  | addiw rd rs1 imm => exact decode_row 43 rfl (.inr (some_of_beq h)) (encI_mask ..) nofun (by simp [encode])
  | slliw rd rs1 shamt => exact decode_row 44 rfl (.inr (some_of_beq h)) (encR_mask ..) nofun (by simp [encode])
  | srliw rd rs1 shamt => exact decode_row 45 rfl (.inr (some_of_beq h)) (encR_mask ..) nofun (by simp [encode])
  | sraiw rd rs1 shamt => exact decode_row 46 rfl (.inr (some_of_beq h)) (encR_mask ..) nofun (by simp [encode])
  | addw rd rs1 rs2 => exact decode_row 47 rfl (.inr (some_of_beq h)) (encR_mask ..) nofun (by simp [encode])
  | subw rd rs1 rs2 => exact decode_row 48 rfl (.inr (some_of_beq h)) (encR_mask ..) nofun (by simp [encode])
  | sllw rd rs1 rs2 => exact decode_row 49 rfl (.inr (some_of_beq h)) (encR_mask ..) nofun (by simp [encode])
  | srlw rd rs1 rs2 => exact decode_row 50 rfl (.inr (some_of_beq h)) (encR_mask ..) nofun (by simp [encode])
  | sraw rd rs1 rs2 => exact decode_row 51 rfl (.inr (some_of_beq h)) (encR_mask ..) nofun (by simp [encode])
  | mul rd rs1 rs2 => exact decode_row 52 rfl (.inl rfl) (encR_mask ..) nofun (by simp [encode])
  | mulh rd rs1 rs2 => exact decode_row 53 rfl (.inl rfl) (encR_mask ..) nofun (by simp [encode])
  | mulhsu rd rs1 rs2 => exact decode_row 54 rfl (.inl rfl) (encR_mask ..) nofun (by simp [encode])
  | mulhu rd rs1 rs2 => exact decode_row 55 rfl (.inl rfl) (encR_mask ..) nofun (by simp [encode])
  | div rd rs1 rs2 => exact decode_row 56 rfl (.inl rfl) (encR_mask ..) nofun (by simp [encode])
  | divu rd rs1 rs2 => exact decode_row 57 rfl (.inl rfl) (encR_mask ..) nofun (by simp [encode])
  | rem rd rs1 rs2 => exact decode_row 58 rfl (.inl rfl) (encR_mask ..) nofun (by simp [encode])
  | remu rd rs1 rs2 => exact decode_row 59 rfl (.inl rfl) (encR_mask ..) nofun (by simp [encode])
  | mulw rd rs1 rs2 => exact decode_row 60 rfl (.inr (some_of_beq h)) (encR_mask ..) nofun (by simp [encode])
  | divw rd rs1 rs2 => exact decode_row 61 rfl (.inr (some_of_beq h)) (encR_mask ..) nofun (by simp [encode])
  | divuw rd rs1 rs2 => exact decode_row 62 rfl (.inr (some_of_beq h)) (encR_mask ..) nofun (by simp [encode])
  | remw rd rs1 rs2 => exact decode_row 63 rfl (.inr (some_of_beq h)) (encR_mask ..) nofun (by simp [encode])
  | remuw rd rs1 rs2 => exact decode_row 64 rfl (.inr (some_of_beq h)) (encR_mask ..) nofun (by simp [encode])
  | lrW aq rl rd rs1 => exact decode_row 65 rfl (.inl rfl) (encAmo_mask_lr ..) nofun (by simp [encode])
  | scW aq rl rd rs1 rs2 => exact decode_row 66 rfl (.inl rfl) (encAmo_mask ..) nofun (by simp [encode])
  | amoswapW aq rl rd rs1 rs2 => exact decode_row 67 rfl (.inl rfl) (encAmo_mask ..) nofun (by simp [encode])
  | amoaddW aq rl rd rs1 rs2 => exact decode_row 68 rfl (.inl rfl) (encAmo_mask ..) nofun (by simp [encode])
  | amoxorW aq rl rd rs1 rs2 => exact decode_row 69 rfl (.inl rfl) (encAmo_mask ..) nofun (by simp [encode])
  | amoandW aq rl rd rs1 rs2 => exact decode_row 70 rfl (.inl rfl) (encAmo_mask ..) nofun (by simp [encode])
  | amoorW aq rl rd rs1 rs2 => exact decode_row 71 rfl (.inl rfl) (encAmo_mask ..) nofun (by simp [encode])
  | amominW aq rl rd rs1 rs2 => exact decode_row 72 rfl (.inl rfl) (encAmo_mask ..) nofun (by simp [encode])
  | amomaxW aq rl rd rs1 rs2 => exact decode_row 73 rfl (.inl rfl) (encAmo_mask ..) nofun (by simp [encode])
  | amominuW aq rl rd rs1 rs2 => exact decode_row 74 rfl (.inl rfl) (encAmo_mask ..) nofun (by simp [encode])
  | amomaxuW aq rl rd rs1 rs2 => exact decode_row 75 rfl (.inl rfl) (encAmo_mask ..) nofun (by simp [encode])
  | lrD aq rl rd rs1 => exact decode_row 76 rfl (.inr (some_of_beq h)) (encAmo_mask_lr ..) nofun (by simp [encode])
  | scD aq rl rd rs1 rs2 => exact decode_row 77 rfl (.inr (some_of_beq h)) (encAmo_mask ..) nofun (by simp [encode])
  | amoswapD aq rl rd rs1 rs2 => exact decode_row 78 rfl (.inr (some_of_beq h)) (encAmo_mask ..) nofun (by simp [encode])
  | amoaddD aq rl rd rs1 rs2 => exact decode_row 79 rfl (.inr (some_of_beq h)) (encAmo_mask ..) nofun (by simp [encode])
  | amoxorD aq rl rd rs1 rs2 => exact decode_row 80 rfl (.inr (some_of_beq h)) (encAmo_mask ..) nofun (by simp [encode])
  | amoandD aq rl rd rs1 rs2 => exact decode_row 81 rfl (.inr (some_of_beq h)) (encAmo_mask ..) nofun (by simp [encode])
  | amoorD aq rl rd rs1 rs2 => exact decode_row 82 rfl (.inr (some_of_beq h)) (encAmo_mask ..) nofun (by simp [encode])
  | amominD aq rl rd rs1 rs2 => exact decode_row 83 rfl (.inr (some_of_beq h)) (encAmo_mask ..) nofun (by simp [encode])
  | amomaxD aq rl rd rs1 rs2 => exact decode_row 84 rfl (.inr (some_of_beq h)) (encAmo_mask ..) nofun (by simp [encode])
  | amominuD aq rl rd rs1 rs2 => exact decode_row 85 rfl (.inr (some_of_beq h)) (encAmo_mask ..) nofun (by simp [encode])
  | amomaxuD aq rl rd rs1 rs2 => exact decode_row 86 rfl (.inr (some_of_beq h)) (encAmo_mask ..) nofun (by simp [encode])
  | csrrw rd csr rs1 => exact decode_row 87 rfl (.inl rfl) (encI_mask ..) nofun (by simp [encode])
  | csrrs rd csr rs1 => exact decode_row 88 rfl (.inl rfl) (encI_mask ..) nofun (by simp [encode])
  | csrrc rd csr rs1 => exact decode_row 89 rfl (.inl rfl) (encI_mask ..) nofun (by simp [encode])
  | csrrwi rd csr uimm => exact decode_row 90 rfl (.inl rfl) (encI_mask ..) nofun (by simp [encode])
  | csrrsi rd csr uimm => exact decode_row 91 rfl (.inl rfl) (encI_mask ..) nofun (by simp [encode])
  | csrrci rd csr uimm => exact decode_row 92 rfl (.inl rfl) (encI_mask ..) nofun (by simp [encode])
  | ecall => exact decode_row 93 rfl (.inl rfl) rfl nofun rfl
  | ebreak => exact decode_row 94 rfl (.inl rfl) rfl nofun rfl
  | mret => exact decode_row 95 rfl (.inl rfl) rfl nofun rfl
  | wfi => exact decode_row 96 rfl (.inl rfl) rfl nofun rfl
  | fence fm pred succ rs1 rd => exact decode_row 97 rfl (.inl rfl) (encI_mask ..) nofun (by simp [encode])
  | fenceI imm rs1 rd => exact decode_row 98 rfl (.inl rfl) (encI_mask ..) nofun (by simp [encode])
  | cAddi4spn rd uimm =>
    obtain ⟨hlow, hne⟩ : lowZero 2 uimm = true ∧ uimm ≠ 0 := by simpa [Instr.wf, Instr.inXLen, Instr.operandsOk] using h
    exact decode_row 99 rfl (.inl rfl) (encCIW_mask ..)
      (List.forall_mem_singleton.2 (mt and_addi4spnField_eq_zero_iff.1 (by simpa [encode, cUimmAddi4spn_enc hlow] using hne)))
      (by simp [encode, cUimmAddi4spn_enc hlow])
  | cLw rd rs1 uimm => exact decode_row 100 rfl (.inl rfl) (encCL_mask ..) nofun (by simp [encode, cUimmW_encCL h])
  | cLd rd rs1 uimm =>
    have hu : lowZero 3 uimm = true := (Bool.and_eq_true_iff.1 h).2
    exact decode_row 101 rfl (.inr (some_of_beq h)) (encCL_mask ..) nofun (by simp [encode, cUimmD_encCL hu])
  | cSw rs1 rs2 uimm => exact decode_row 102 rfl (.inl rfl) (encCL_mask ..) nofun (by simp [encode, cUimmW_encCL h])
  | cSd rs1 rs2 uimm =>
    have hu : lowZero 3 uimm = true := (Bool.and_eq_true_iff.1 h).2
    exact decode_row 103 rfl (.inr (some_of_beq h)) (encCL_mask ..) nofun (by simp [encode, cUimmD_encCL hu])
  | cNop imm => exact decode_row 104 rfl (.inl rfl) (encCI_mask_rd ..) nofun (by simp [encode])
  | cAddi rd imm =>
    have hrd : rd ≠ 0 := bne_iff_ne.1 h
    exact decode_row 105 rfl (.inl rfl) (encCI_mask ..)
      (List.forall_mem_singleton.2 (mt (and_rdField_eq_iff (r := 0)).1 (by simpa [encode] using hrd))) (by simp [encode])
  | cJal off =>
    have hoff : lowZero 1 off = true := (Bool.and_eq_true_iff.1 h).2
    exact decode_row 106 rfl (.inr (some_of_beq h)) (encCJ_mask ..) nofun (by simp [encode, cOffJ_encOffJ hoff])
  | cAddiw rd imm =>
    have hrd : rd ≠ 0 := bne_iff_ne.1 (Bool.and_eq_true_iff.1 h).2
    exact decode_row 107 rfl (.inr (some_of_beq h)) (encCI_mask ..)
      (List.forall_mem_singleton.2 (mt (and_rdField_eq_iff (r := 0)).1 (by simpa [encode] using hrd))) (by simp [encode])
  | cLi rd imm => exact decode_row 108 rfl (.inl rfl) (encCI_mask ..) nofun (by simp [encode])
  | cAddi16sp imm =>
    obtain ⟨hlow, hne⟩ : lowZero 4 imm = true ∧ imm ≠ 0 := by simpa [Instr.wf, Instr.inXLen, Instr.operandsOk] using h
    exact decode_row 109 rfl (.inl rfl) (encCI_mask_rd ..)
      (List.forall_mem_singleton.2 (mt and_imm16spField_eq_zero_iff.1 (by simpa [encode, cImm16sp_encCI hlow] using hne)))
      (by simp [encode, cImm16sp_encCI hlow])
  | cLui rd imm =>
    obtain ⟨hrd, hne⟩ : rd ≠ 2 ∧ imm ≠ 0 := by simpa [Instr.wf, Instr.inXLen, Instr.operandsOk] using h
    exact decode_row 110 rfl (.inl rfl) (encCI_mask ..)
      (List.forall_mem_cons.2 ⟨mt (and_rdField_eq_iff (r := 2)).1 (by simpa [encode] using hrd),
        List.forall_mem_singleton.2 (mt and_imm6Field_eq_zero_iff.1 (by simpa [encode] using hne))⟩) (by simp [encode])
  | cSrli rd shamt =>
    cases xl with
    | rv32 => exact decode_row 111 rfl (.inr rfl) (encCShift_mask_rv32 _ _ h ..) nofun (by simp [encode])
    | rv64 => exact decode_row 112 rfl (.inr rfl) (encCShift_mask ..) nofun (by simp [encode])
  | cSrai rd shamt =>
    cases xl with
    | rv32 => exact decode_row 113 rfl (.inr rfl) (encCShift_mask_rv32 _ _ h ..) nofun (by simp [encode])
    | rv64 => exact decode_row 114 rfl (.inr rfl) (encCShift_mask ..) nofun (by simp [encode])
  | cAndi rd imm => exact decode_row 115 rfl (.inl rfl) (encCShift_mask ..) nofun (by simp [encode])
  | cSub rd rs2 => exact decode_row 116 rfl (.inl rfl) (encCA_mask ..) nofun (by simp [encode])
  | cXor rd rs2 => exact decode_row 117 rfl (.inl rfl) (encCA_mask ..) nofun (by simp [encode])
  | cOr rd rs2 => exact decode_row 118 rfl (.inl rfl) (encCA_mask ..) nofun (by simp [encode])
  | cAnd rd rs2 => exact decode_row 119 rfl (.inl rfl) (encCA_mask ..) nofun (by simp [encode])
  | cSubw rd rs2 => exact decode_row 120 rfl (.inr (some_of_beq h)) (encCA_mask ..) nofun (by simp [encode])
  | cAddw rd rs2 => exact decode_row 121 rfl (.inr (some_of_beq h)) (encCA_mask ..) nofun (by simp [encode])
  | cJ off => exact decode_row 122 rfl (.inl rfl) (encCJ_mask ..) nofun (by simp [encode, cOffJ_encOffJ h])
  | cBeqz rs1 off => exact decode_row 123 rfl (.inl rfl) (encCBranch_mask ..) nofun (by simp [encode, cOffB_encCBranch h])
  | cBnez rs1 off => exact decode_row 124 rfl (.inl rfl) (encCBranch_mask ..) nofun (by simp [encode, cOffB_encCBranch h])
  | cSlli rd shamt =>
    cases xl with
    | rv32 => exact decode_row 125 rfl (.inr rfl) (encCI_mask_rv32 _ h ..) nofun (by simp [encode])
    | rv64 => exact decode_row 126 rfl (.inr rfl) (encCI_mask ..) nofun (by simp [encode])
  | cLwsp rd uimm =>
    obtain ⟨-, hrd, hlow⟩ : Instr.inXLen xl (.cLwsp rd uimm) = true ∧ rd ≠ 0 ∧ lowZero 2 uimm = true := by
      simpa [Instr.wf, Instr.operandsOk] using h
    exact decode_row 127 rfl (.inl rfl) (encCI_mask ..)
      (List.forall_mem_singleton.2 (mt (and_rdField_eq_iff (r := 0)).1 (by simpa [encode] using hrd))) (by simp [encode, cUimmLwsp_encCI hlow])
  | cLdsp rd uimm =>
    obtain ⟨-, hrd, hlow⟩ : Instr.inXLen xl (.cLdsp rd uimm) = true ∧ rd ≠ 0 ∧ lowZero 3 uimm = true := by
      simpa [Instr.wf, Instr.operandsOk] using h
    exact decode_row 128 rfl (.inr (some_of_beq h)) (encCI_mask ..)
      (List.forall_mem_singleton.2 (mt (and_rdField_eq_iff (r := 0)).1 (by simpa [encode] using hrd))) (by simp [encode, cUimmLdsp_encCI hlow])
  | cJr rs1 =>
    have hrs1 : rs1 ≠ 0 := bne_iff_ne.1 h
    exact decode_row 129 rfl (.inl rfl) (encCR_mask_rs2 ..)
      (List.forall_mem_singleton.2 (mt (and_rdField_eq_iff (r := 0)).1 (by simpa [encode] using hrs1))) (by simp [encode])
  | cMv rd rs2 =>
    have hrs2 : rs2 ≠ 0 := bne_iff_ne.1 h
    exact decode_row 130 rfl (.inl rfl) (encCR_mask ..)
      (List.forall_mem_singleton.2 (mt and_rs2Field_eq_zero_iff.1 (by simpa [encode] using hrs2))) (by simp [encode])
  | cEbreak => exact decode_row 131 rfl (.inl rfl) rfl nofun rfl
  | cJalr rs1 =>
    have hrs1 : rs1 ≠ 0 := bne_iff_ne.1 h
    exact decode_row 132 rfl (.inl rfl) (encCR_mask_rs2 ..)
      (List.forall_mem_singleton.2 (mt (and_rdField_eq_iff (r := 0)).1 (by simpa [encode] using hrs1))) (by simp [encode])
  | cAdd rd rs2 =>
    have hrs2 : rs2 ≠ 0 := bne_iff_ne.1 h
    exact decode_row 133 rfl (.inl rfl) (encCR_mask ..)
      (List.forall_mem_singleton.2 (mt and_rs2Field_eq_zero_iff.1 (by simpa [encode] using hrs2))) (by simp [encode])
  | cSwsp rs2 uimm => exact decode_row 134 rfl (.inl rfl) (encCSS_mask ..) nofun (by simp [encode, cUimmSwsp_enc h])
  | cSdsp rs2 uimm =>
    have hu : lowZero 3 uimm = true := (Bool.and_eq_true_iff.1 h).2
    exact decode_row 135 rfl (.inr (some_of_beq h)) (encCSS_mask ..) nofun (by simp [encode, cUimmSdsp_enc hu])

end Sys2Proof
end

section
/-! PROOFS. What the computations, the branches and the jumps give (R180 to R213, R240 to R251, R275 to R290, R333 to
R364). -/

namespace Sys2Proof.Machine

/-! ### The value congruent to an integer -/

theorem XLen.bits_pos (xl : XLen) : 0 < xl.bits := by cases xl <;> decide

theorem setWidth_ofInt_of_le {n m : Nat} (h : n ≤ m) (z : Int) : (BitVec.ofInt m z).setWidth n = BitVec.ofInt n z := by
  refine BitVec.eq_of_toNat_eq ?_
  have hm : z % ((2 ^ m : Nat) : Int) % ((2 ^ n : Nat) : Int) = z % ((2 ^ n : Nat) : Int) :=
    Int.emod_emod_of_dvd z (Int.natCast_dvd_natCast.2 (Nat.pow_dvd_pow 2 h))
  have hpos : 0 ≤ z % ((2 ^ m : Nat) : Int) := Int.emod_nonneg _ (by positivity)
  rw [BitVec.toNat_setWidth, BitVec.toNat_ofInt, BitVec.toNat_ofInt, ← hm, Int.toNat_emod hpos (by positivity),
    Int.toNat_natCast]

theorem sext_eq_ofIntX (xl : XLen) {n : Nat} (v : BitVec n) : xl.sext v = ofIntX xl v.toInt :=
  congrArg (BitVec.setWidth 64) (setWidth_ofInt_of_le (xlen_bits_le xl) v.toInt)

theorem zext_eq_ofIntX (xl : XLen) {n : Nat} (v : BitVec n) : xl.zext v = ofIntX xl v.toNat := by
  rw [← XLen.wrap_ofNat, BitVec.ofNat_toNat, XLen.zext]

theorem ofInt_signed (xl : XLen) (a : Word) : BitVec.ofInt xl.bits (signed xl a) = a.setWidth xl.bits :=
  BitVec.ofInt_toInt

theorem ofInt_unsigned (xl : XLen) (a : Word) : BitVec.ofInt xl.bits (unsigned xl a) = a.setWidth xl.bits := by
  rw [BitVec.ofInt_natCast, unsigned, BitVec.ofNat_toNat, BitVec.setWidth_eq]

theorem ofInt_toNat (xl : XLen) (a : Word) : BitVec.ofInt xl.bits a.toNat = a.setWidth xl.bits := by
  rw [BitVec.ofInt_natCast, BitVec.ofNat_toNat]

/-- The upper immediates: an immediate above twelve zeros (R143, R344). -/
theorem sext_append_zero (xl : XLen) {n : Nat} (imm : BitVec n) :
    xl.sext (imm ++ 0#12) = ofIntX xl (imm.toInt * 4096) := by
  rw [sext_eq_ofIntX, BitVec.toInt_append_zero, Int.mul_comm]
  rfl

theorem ofIntX_zero (xl : XLen) : ofIntX xl 0 = 0 := by cases xl <;> decide
theorem ofIntX_two (xl : XLen) : ofIntX xl 2 = 2 := by cases xl <;> decide
theorem ofIntX_four (xl : XLen) : ofIntX xl 4 = 4 := by cases xl <;> decide
theorem ofIntW_zero (xl : XLen) : ofIntW xl 0 = 0 := by cases xl <;> decide

/-- The signed value of a small integer is that integer. -/
theorem signed_ofIntX (xl : XLen) {z : Int} (hlo : -2 ^ 31 ≤ z) (hhi : z < 2 ^ 31) : signed xl (ofIntX xl z) = z := by
  rw [signed, setWidth_bits_ofIntX, BitVec.toInt_ofInt]
  cases xl <;> exact Int.bmod_eq_of_le (by simp [XLen.bits]; omega) (by simp [XLen.bits]; omega)

theorem signed_sext (xl : XLen) (imm : BitVec 12) : signed xl (xl.sext imm) = imm.toInt := by
  have hlo := imm.le_toInt
  have hhi := imm.toInt_lt
  rw [sext_eq_ofIntX, signed_ofIntX] <;> omega

/-! ### The operations at a width, as integer arithmetic modulo a power of two -/

section
variable {n : Nat} (a b : BitVec n)

theorem opAdd_eq : opAdd n a b = BitVec.ofInt n (a.toInt + b.toInt) := by
  rw [BitVec.ofInt_add, BitVec.ofInt_toInt, BitVec.ofInt_toInt, opAdd]

theorem opSub_eq : opSub n a b = BitVec.ofInt n (a.toInt - b.toInt) := by
  refine BitVec.eq_of_toInt_eq ?_
  rw [opSub, BitVec.toInt_sub, BitVec.toInt_ofInt]

theorem opSll_eq : opSll n a b = BitVec.ofInt n (a.toNat * 2 ^ (b.toNat % n)) := by
  refine BitVec.eq_of_toNat_eq ?_
  rw [← Nat.cast_ofNat, ← Nat.cast_pow, ← Nat.cast_mul, BitVec.ofInt_natCast, BitVec.toNat_ofNat, opSll, shiftAmount,
    BitVec.toNat_shiftLeft, Nat.shiftLeft_eq]

theorem opSrl_eq : opSrl n a b = BitVec.ofInt n (a.toNat / 2 ^ (b.toNat % n)) := by
  refine BitVec.eq_of_toNat_eq ?_
  rw [← Nat.cast_ofNat, ← Nat.cast_pow, ← Int.natCast_div, BitVec.ofInt_natCast, BitVec.toNat_ofNat, opSrl,
    shiftAmount, BitVec.toNat_ushiftRight, Nat.shiftRight_eq_div_pow,
    Nat.mod_eq_of_lt ((Nat.div_le_self ..).trans_lt a.isLt)]

theorem opSra_eq : opSra n a b = BitVec.ofInt n (a.toInt / 2 ^ (b.toNat % n)) := by
  rw [← BitVec.ofInt_toInt (x := opSra n a b), opSra, shiftAmount, BitVec.toInt_sshiftRight, Int.shiftRight_eq_div_pow]
  norm_cast

theorem opMul_eq : opMul n a b = BitVec.ofInt n (a.toNat * b.toNat) := by
  rw [← Nat.cast_mul, BitVec.ofInt_natCast, BitVec.ofNat_mul, BitVec.ofNat_toNat, BitVec.ofNat_toNat,
    BitVec.setWidth_eq, BitVec.setWidth_eq, opMul]

/-- The upper half of a product is the product divided by 2^n, rounded down. -/
theorem upperHalf_eq (p : Int) : upperHalf n p = BitVec.ofInt n (p / 2 ^ n) := by
  refine BitVec.eq_of_toNat_eq (Int.ofNat_inj.1 ?_)
  have hM : (2 : Int) ^ n ≠ 0 := by positivity
  have hr : 0 ≤ p % (2 ^ n * 2 ^ n) := Int.emod_nonneg _ (by positivity)
  have hq : 0 ≤ p / 2 ^ n % 2 ^ n := Int.emod_nonneg _ hM
  have hsplit : p % (2 ^ n * 2 ^ n) = p - 2 ^ n * (2 ^ n * (p / (2 ^ n * 2 ^ n))) := by
    rw [← mul_assoc, ← Int.emod_def]
  have hdiv : p % (2 ^ n * 2 ^ n) / 2 ^ n % 2 ^ n = p / 2 ^ n % 2 ^ n := by
    rw [hsplit, Int.sub_mul_ediv_left _ _ hM, Int.sub_mul_emod_self_left]
  rw [upperHalf, BitVec.extractLsb'_toNat, BitVec.toNat_ofInt, BitVec.toNat_ofInt, Nat.shiftRight_eq_div_pow, two_mul,
    pow_add]
  push_cast
  rw [Int.toNat_of_nonneg hr, Int.toNat_of_nonneg hq, hdiv]

theorem divOverflows_iff (hn : 0 < n) : divOverflows n a b = true ↔ a.toInt = -(2 ^ (n - 1)) ∧ b.toInt = -1 := by
  have hb : b = BitVec.allOnes n ↔ b.toInt = -1 := by
    rw [← BitVec.toInt_inj, BitVec.toInt_allOnes, if_pos hn]
  have ha : a = BitVec.intMin n ↔ a.toInt = -2 ^ (n - 1) := by
    rw [← BitVec.toInt_inj, BitVec.toInt_intMin_of_pos hn]
  rw [divOverflows, Bool.and_eq_true, beq_iff_eq, beq_iff_eq, ha, hb]

theorem eq_zero_iff_toNat : b = 0 ↔ b.toNat = 0 := by
  rw [← BitVec.toNat_inj]
  rfl

theorem allOnes_eq (hn : 0 < n) : BitVec.allOnes n = BitVec.ofInt n (-1) := by
  rw [← BitVec.ofInt_toInt (x := BitVec.allOnes n), BitVec.toInt_allOnes, if_pos hn]

theorem intMin_eq : BitVec.intMin n = BitVec.ofInt n (2 ^ (n - 1)) := by
  refine BitVec.eq_of_toNat_eq ?_
  rw [← Nat.cast_ofNat, ← Nat.cast_pow, BitVec.ofInt_natCast, BitVec.toNat_ofNat, BitVec.toNat_intMin]

theorem opDiv_eq (hn : 0 < n) : opDiv n a b = BitVec.ofInt n
    (if b.toNat = 0 then -1 else if a.toInt = -(2 ^ (n - 1)) ∧ b.toInt = -1 then 2 ^ (n - 1)
      else a.toInt.tdiv b.toInt) := by
  simp only [opDiv, eq_zero_iff_toNat, divOverflows_iff a b hn, apply_ite (BitVec.ofInt n), quotS, allOnes_eq hn,
    intMin_eq]

theorem opDivu_eq (hn : 0 < n) :
    opDivu n a b = BitVec.ofInt n (if b.toNat = 0 then -1 else (a.toNat / b.toNat : Nat)) := by
  simp only [opDivu, eq_zero_iff_toNat, apply_ite (BitVec.ofInt n), BitVec.ofInt_natCast, allOnes_eq hn]

theorem opRem_eq (hn : 0 < n) : opRem n a b = BitVec.ofInt n
    (if b.toNat = 0 then a.toInt else if a.toInt = -(2 ^ (n - 1)) ∧ b.toInt = -1 then 0 else a.toInt.tmod b.toInt) := by
  have hzero : BitVec.ofInt n 0 = 0 := BitVec.ofInt_ofNat ..
  simp only [opRem, eq_zero_iff_toNat, divOverflows_iff a b hn, apply_ite (BitVec.ofInt n), quotS, BitVec.ofInt_toInt,
    Int.tmod_def, hzero]

theorem opRemu_eq : opRemu n a b = BitVec.ofInt n (if b.toNat = 0 then a.toInt else (a.toNat % b.toNat : Nat)) := by
  simp only [opRemu, eq_zero_iff_toNat, apply_ite (BitVec.ofInt n), BitVec.ofInt_natCast, BitVec.ofInt_toInt]

end

/-! ### The operations on XLEN-bit values and on words -/

theorem atXLen_eq {xl : XLen} {f : (n : Nat) → BitVec n → BitVec n → BitVec n} {a b : Word} {z : Int}
    (h : f xl.bits (a.setWidth xl.bits) (b.setWidth xl.bits) = BitVec.ofInt xl.bits z) :
    atXLen xl f a b = ofIntX xl z := setWidth_eq_ofIntX h

theorem atWord_eq {xl : XLen} {f : (n : Nat) → BitVec n → BitVec n → BitVec n} {a b : Word} {z : Int}
    (h : f 32 (a.setWidth 32) (b.setWidth 32) = BitVec.ofInt 32 z) : atWord xl f a b = ofIntW xl z := by
  rw [atWord, h, sext_eq_ofIntX]
  rfl

theorem setWidth_word_ofIntX (xl : XLen) (z : Int) : (ofIntX xl z).setWidth 32 = BitVec.ofInt 32 z := by
  rw [ofIntX, BitVec.setWidth_setWidth_of_le _ (by decide), setWidth_ofInt_of_le (by cases xl <;> decide)]

theorem atWord_add_ofIntX (xl : XLen) (a : Word) (z : Int) :
    atWord xl opAdd a (ofIntX xl z) = ofIntW xl (signedW a + z) := by
  refine atWord_eq ?_
  rw [setWidth_word_ofIntX, BitVec.ofInt_add, signedW, BitVec.ofInt_toInt, opAdd]

theorem atXLen_add_ofIntX (xl : XLen) (a : Word) (z : Int) :
    atXLen xl opAdd a (ofIntX xl z) = ofIntX xl (signed xl a + z) := by
  refine atXLen_eq ?_
  rw [setWidth_bits_ofIntX, BitVec.ofInt_add, ofInt_signed, opAdd]

/-- An address and a displacement: their sum modulo 2^XLEN (R36, R255). -/
theorem addOffset_ofIntX (xl : XLen) (a : Word) (z : Int) : addOffset xl a (ofIntX xl z) = ofIntX xl (a.toNat + z) := by
  refine atXLen_eq ?_
  rw [setWidth_bits_ofIntX, BitVec.ofInt_add, ofInt_toNat, opAdd]

theorem atXLen_xor (xl : XLen) (a b : Word) : atXLen xl opXor a b = xl.wrap (a ^^^ b) := by
  rw [atXLen, opXor, ← BitVec.setWidth_xor, XLen.wrap]

theorem atXLen_or (xl : XLen) (a b : Word) : atXLen xl opOr a b = xl.wrap (a ||| b) := by
  rw [atXLen, opOr, ← BitVec.setWidth_or, XLen.wrap]

theorem atXLen_and (xl : XLen) (a b : Word) : atXLen xl opAnd a b = xl.wrap (a &&& b) := by
  rw [atXLen, opAnd, ← BitVec.setWidth_and, XLen.wrap]

theorem setWidth_one_bits (xl : XLen) : (1 : BitVec xl.bits).setWidth 64 = 1 := by cases xl <;> decide
theorem setWidth_zero_bits (xl : XLen) : (0 : BitVec xl.bits).setWidth 64 = 0 := by cases xl <;> decide

theorem atXLen_slt (xl : XLen) (a b : Word) : atXLen xl opSlt a b = if signed xl a < signed xl b then 1 else 0 := by
  simp only [atXLen, opSlt, apply_ite (BitVec.setWidth 64), setWidth_one_bits, setWidth_zero_bits]
  rfl

theorem atXLen_sltu (xl : XLen) (a b : Word) :
    atXLen xl opSltu a b = if unsigned xl a < unsigned xl b then 1 else 0 := by
  simp only [atXLen, opSltu, apply_ite (BitVec.setWidth 64), setWidth_one_bits, setWidth_zero_bits]
  rfl

/-- An immediate shift amount below XLEN is not masked (R181). -/
theorem toNat_shamt (xl : XLen) {shamt : BitVec 6} (h : shamt.toNat < xl.bits) :
    ((shamt.setWidth 64).setWidth xl.bits).toNat % xl.bits = shamt.toNat := by
  have h64 := shamt.isLt
  have h32 : 2 ^ 6 ≤ 2 ^ xl.bits := Nat.pow_le_pow_right (by decide) (by cases xl <;> decide)
  rw [BitVec.toNat_setWidth, BitVec.toNat_setWidth, Nat.mod_eq_of_lt (by omega : shamt.toNat < 2 ^ 64),
    Nat.mod_eq_of_lt (by omega : shamt.toNat < 2 ^ xl.bits), Nat.mod_eq_of_lt h]

theorem atXLen_sll_shamt (xl : XLen) (a : Word) {shamt : BitVec 6} (h : shamt.toNat < xl.bits) :
    atXLen xl opSll a (shamt.setWidth 64) = ofIntX xl (unsigned xl a * 2 ^ shamt.toNat) :=
  atXLen_eq (by rw [opSll_eq, toNat_shamt xl h, unsigned])

theorem atXLen_srl_shamt (xl : XLen) (a : Word) {shamt : BitVec 6} (h : shamt.toNat < xl.bits) :
    atXLen xl opSrl a (shamt.setWidth 64) = ofIntX xl (unsigned xl a / 2 ^ shamt.toNat) :=
  atXLen_eq (by rw [opSrl_eq, toNat_shamt xl h, unsigned])

theorem atXLen_sra_shamt (xl : XLen) (a : Word) {shamt : BitVec 6} (h : shamt.toNat < xl.bits) :
    atXLen xl opSra a (shamt.setWidth 64) = ofIntX xl (signed xl a / 2 ^ shamt.toNat) :=
  atXLen_eq (by rw [opSra_eq, toNat_shamt xl h, signed])

theorem toNat_shamtW (shamt : BitVec 5) : ((shamt.setWidth 64).setWidth 32).toNat % 32 = shamt.toNat := by
  have h := shamt.isLt
  rw [BitVec.toNat_setWidth, BitVec.toNat_setWidth]
  omega

/-! ### Instructions that compute one register result (R180, R182) -/

section
variable {s : State} (hx : AtEx s) {v w : Word} (rd : Reg)
include hx

theorem writeResult_eq (h : w = v) (hw : s.cfg.xlen.Fits w) :
    ∃ t, writeResult rd w s = .next t ∧ OnlyResult rd v s t := h ▸ writeResult_next hx hw rd

theorem writeResult_atXLen {f : (n : Nat) → BitVec n → BitVec n → BitVec n} {a b : Word}
    (h : atXLen s.cfg.xlen f a b = v) : ∃ t, writeResult rd (atXLen s.cfg.xlen f a b) s = .next t ∧ OnlyResult rd v s t :=
  writeResult_eq hx rd h (fits_atXLen ..)

theorem writeResult_atWord {f : (n : Nat) → BitVec n → BitVec n → BitVec n} {a b : Word}
    (h : atWord s.cfg.xlen f a b = v) : ∃ t, writeResult rd (atWord s.cfg.xlen f a b) s = .next t ∧ OnlyResult rd v s t :=
  writeResult_eq hx rd h (fits_atWord ..)

end

/-- Settles O14. -/
theorem immediateInstructionsCompute : Obligations.ImmediateInstructionsCompute := by
  intro s rd rs1 imm20 imm hx xl a
  have hupper : upperImm xl imm20 = ofIntX xl (imm20 ++ 0#12).toInt := sext_eq_ofIntX ..
  have hsext : xl.sext imm = ofIntX xl imm.toInt := sext_eq_ofIntX ..
  refine ⟨writeResult_eq hx rd hupper (fits_sext ..), writeResult_atXLen hx rd ?_, writeResult_atXLen hx rd ?_,
    writeResult_atXLen hx rd ?_, writeResult_atXLen hx rd ?_, writeResult_atXLen hx rd ?_, writeResult_atXLen hx rd ?_,
    writeResult_atXLen hx rd ?_⟩
  · rw [hupper]; exact addOffset_ofIntX ..
  · rw [hsext, atXLen_add_ofIntX]
  · rw [atXLen_slt, signed_sext]
  · rw [hsext, atXLen_sltu]
  · rw [hsext, atXLen_xor]
  · rw [hsext, atXLen_or]
  · rw [hsext, atXLen_and]

/-- Settles O15. -/
theorem shiftsCompute : Obligations.ShiftsCompute := by
  intro s rd rs1 rs2 shamt hx h xl a n
  exact ⟨writeResult_atXLen hx rd (atXLen_sll_shamt xl a h), writeResult_atXLen hx rd (atXLen_srl_shamt xl a h),
    writeResult_atXLen hx rd (atXLen_sra_shamt xl a h), writeResult_atXLen hx rd (atXLen_eq (opSll_eq ..)),
    writeResult_atXLen hx rd (atXLen_eq (opSrl_eq ..)), writeResult_atXLen hx rd (atXLen_eq (opSra_eq ..))⟩

/-- Settles O16. -/
theorem registerInstructionsCompute : Obligations.RegisterInstructionsCompute := by
  intro s rd rs1 rs2 hx xl a b
  exact ⟨writeResult_atXLen hx rd (atXLen_add ..), writeResult_atXLen hx rd (atXLen_sub ..),
    writeResult_atXLen hx rd (atXLen_slt ..), writeResult_atXLen hx rd (atXLen_sltu ..),
    writeResult_atXLen hx rd (atXLen_xor ..), writeResult_atXLen hx rd (atXLen_or ..),
    writeResult_atXLen hx rd (atXLen_and ..)⟩

/-- Settles O17. -/
theorem wordInstructionsCompute : Obligations.WordInstructionsCompute := by
  intro s rd rs1 rs2 imm shamt hx _ xl a b n
  refine ⟨writeResult_atWord hx rd ?_, writeResult_atWord hx rd (atWord_eq ?_),
    writeResult_atWord hx rd (atWord_eq ?_), writeResult_atWord hx rd (atWord_eq ?_),
    writeResult_atWord hx rd (atWord_eq (opAdd_eq ..)), writeResult_atWord hx rd (atWord_eq (opSub_eq ..)),
    writeResult_atWord hx rd (atWord_eq (opSll_eq ..)), writeResult_atWord hx rd (atWord_eq (opSrl_eq ..)),
    writeResult_atWord hx rd (atWord_eq (opSra_eq ..))⟩
  · rw [sext_eq_ofIntX, atWord_add_ofIntX]
  · rw [opSll_eq, toNat_shamtW, unsignedW]
  · rw [opSrl_eq, toNat_shamtW, unsignedW]
  · rw [opSra_eq, toNat_shamtW, signedW]

/-- Settles O18. -/
theorem multiplicationsCompute : Obligations.MultiplicationsCompute := by
  intro s rd rs1 rs2 hx xl a b
  exact ⟨writeResult_atXLen hx rd (atXLen_eq (opMul_eq ..)), writeResult_atXLen hx rd (atXLen_eq (upperHalf_eq ..)),
    writeResult_atXLen hx rd (atXLen_eq (upperHalf_eq ..)), writeResult_atXLen hx rd (atXLen_eq (upperHalf_eq ..))⟩

/-- Settles O19. -/
theorem divisionsCompute : Obligations.DivisionsCompute := by
  intro s rd rs1 rs2 hx xl a b overflow
  have hpos := XLen.bits_pos s.cfg.xlen
  have hkept : ofIntX s.cfg.xlen (signed xl a) = ofIntX s.cfg.xlen (unsigned xl a) := by
    rw [ofIntX, ofInt_signed, ← ofInt_unsigned, ofIntX]
  refine ⟨writeResult_atXLen hx rd ((atXLen_eq (opDiv_eq _ _ hpos)).trans ?_),
    writeResult_atXLen hx rd ((atXLen_eq (opDivu_eq _ _ hpos)).trans ?_),
    writeResult_atXLen hx rd ((atXLen_eq (opRem_eq _ _ hpos)).trans ?_),
    writeResult_atXLen hx rd ((atXLen_eq (opRemu_eq ..)).trans ?_)⟩
  case refine_4 =>
    rw [← hkept]
    exact apply_ite (ofIntX s.cfg.xlen) ..
  all_goals
    simp only [apply_ite (ofIntX s.cfg.xlen), ofIntX_zero]
    rfl

/-- Settles O20. -/
theorem wordMultiplyDivideCompute : Obligations.WordMultiplyDivideCompute := by
  intro s rd rs1 rs2 hx _ xl a b overflow
  have hmin : ofIntW xl (2 ^ 31) = ofIntW xl (-(2 ^ 31)) := by cases xl <;> decide
  refine ⟨writeResult_atWord hx rd (atWord_eq (opMul_eq ..)),
    writeResult_atWord hx rd ((atWord_eq (opDiv_eq _ _ (by decide))).trans ?_),
    writeResult_atWord hx rd ((atWord_eq (opDivu_eq _ _ (by decide))).trans ?_),
    writeResult_atWord hx rd ((atWord_eq (opRem_eq _ _ (by decide))).trans ?_),
    writeResult_atWord hx rd ((atWord_eq (opRemu_eq ..)).trans ?_)⟩
  · simp only [apply_ite (ofIntW s.cfg.xlen)]
    rw [show ofIntW s.cfg.xlen (2 ^ (32 - 1)) = ofIntW s.cfg.xlen (-(2 ^ 31)) from hmin]
    rfl
  all_goals
    simp only [apply_ite (ofIntW s.cfg.xlen), ofIntW_zero]
    rfl

/-! ### Branches and jumps (R240 to R251) -/

/-- The value with bit 0 cleared is the even number below it (R37, R251). -/
theorem clearBit0_ofIntX (xl : XLen) (z : Int) : clearBit0 (ofIntX xl z) = ofIntX xl (2 * (z / 2)) := by
  refine BitVec.eq_of_toNat_eq ?_
  have hclear (v : Word) : (clearBit0 v).toNat = 2 * (v.toNat / 2) := by
    have hbits : v &&& ~~~(1#64) = (v >>> 1) <<< 1 := by
      refine BitVec.eq_of_getLsbD_eq fun i hi => ?_
      simp only [BitVec.getLsbD_and, BitVec.getLsbD_not, BitVec.getLsbD_one, BitVec.getLsbD_shiftLeft,
        BitVec.getLsbD_ushiftRight]
      cases i with
      | zero => simp
      | succ i => simp [hi, Nat.add_comm 1]
    rw [clearBit0, BitVec.ofNat_eq_ofNat, hbits, BitVec.toNat_shiftLeft, BitVec.toNat_ushiftRight]
    have hlt := v.isLt
    omega
  rw [hclear]
  cases xl <;> simp [ofIntX, XLen.bits] <;> omega

theorem addOffset_ofIntX_signed (xl : XLen) (a : Word) (z : Int) :
    addOffset xl a (ofIntX xl z) = ofIntX xl (signed xl a + z) := atXLen_add_ofIntX ..

theorem linkValue_four (s : State) : s.linkValue 4 = ofIntX s.cfg.xlen (s.instrPc.toNat + 4) := by
  rw [State.linkValue, ← ofIntX_four s.cfg.xlen, addOffset_ofIntX]

theorem linkValue_two (s : State) : s.linkValue 2 = ofIntX s.cfg.xlen (s.instrPc.toNat + 2) := by
  rw [State.linkValue, ← ofIntX_two s.cfg.xlen, addOffset_ofIntX]

theorem jalrTarget_ofIntX (xl : XLen) (a : Word) (z : Int) :
    jalrTarget xl a (ofIntX xl z) = ofIntX xl (2 * ((signed xl a + z) / 2)) := by
  rw [jalrTarget, addOffset_ofIntX_signed, clearBit0_ofIntX]

/-- The target of a branch or jump by an offset (R240, R250). -/
theorem addOffset_sext (xl : XLen) (pc : Word) {n : Nat} (off : BitVec n) :
    addOffset xl pc (xl.sext off) = ofIntX xl (pc.toNat + off.toInt) := by rw [sext_eq_ofIntX, addOffset_ofIntX]

/-- A conditional branch whose condition decides `p`. -/
theorem branchIf_sext {p : Prop} [Decidable p] {cond : Bool} (h : cond = true ↔ p) (s : State) {n : Nat} (off : BitVec n) :
    ∃ t, branchIf cond (s.cfg.xlen.sext off) s = .next t ∧
      if p then Jump none (ofIntX s.cfg.xlen (s.instrPc.toNat + off.toInt)) s t else Nothing s t := by
  have hb := branchIf_next cond (s.cfg.xlen.sext off) s
  simpa only [h, addOffset_sext] using hb

theorem jumpLink_four {s : State} (hx : AtEx s) (rd : Reg) {target v : Word} (h : target = v) :
    ∃ t, jumpLink rd 4 target s = .next t ∧ Jump (some (rd, ofIntX s.cfg.xlen (s.instrPc.toNat + 4))) v s t := by
  rw [← h, ← linkValue_four]
  exact jumpLink_next hx rd 4 target

theorem jumpLink_two {s : State} (hx : AtEx s) (rd : Reg) {target v : Word} (h : target = v) :
    ∃ t, jumpLink rd 2 target s = .next t ∧ Jump (some (rd, ofIntX s.cfg.xlen (s.instrPc.toNat + 2))) v s t := by
  rw [← h, ← linkValue_two]
  exact jumpLink_next hx rd 2 target

/-- Settles O21. -/
theorem branchesTransferOnTheirCondition : Obligations.BranchesTransferOnTheirCondition := by
  intro s rs1 rs2 off _ xl a b target
  exact ⟨branchIf_sext beq_iff_eq s off, branchIf_sext bne_iff_ne s off, branchIf_sext decide_eq_true_iff s off,
    branchIf_sext decide_eq_true_iff s off, branchIf_sext decide_eq_true_iff s off,
    branchIf_sext decide_eq_true_iff s off⟩

/-- Settles O22. -/
theorem jumpsLinkAndTransfer : Obligations.JumpsLinkAndTransfer := by
  intro s rd rs1 off imm hx xl link
  refine ⟨jumpLink_four hx rd (addOffset_sext ..), jumpLink_four hx rd ?_⟩
  rw [sext_eq_ofIntX, jalrTarget_ofIntX]

/-! ### Compressed computations and transfers (R333 to R364) -/

/-- Settles O38. Each is its base expansion (R330). -/
theorem compressedComputationsCompute : Obligations.CompressedComputationsCompute := by
  intro s rd rs2 rd' rs2' uimm imm nz hx xl d c e
  have himm : xl.sext imm = ofIntX xl imm.toInt := sext_eq_ofIntX ..
  refine ⟨writeResult_atXLen hx d ?_, writeResult_atXLen hx 0 ?_, writeResult_atXLen hx rd ?_,
    writeResult_atWord hx rd ?_, writeResult_atXLen hx rd ?_, writeResult_atXLen hx 2 ?_,
    writeResult_eq hx rd (sext_append_zero xl imm) (fits_sext ..),
    fun h => ⟨writeResult_atXLen hx d (atXLen_srl_shamt xl c h), writeResult_atXLen hx d (atXLen_sra_shamt xl c h),
      writeResult_atXLen hx rd (atXLen_sll_shamt xl _ h)⟩,
    writeResult_atXLen hx d ?_, writeResult_atXLen hx d (atXLen_sub ..), writeResult_atXLen hx d (atXLen_xor ..),
    writeResult_atXLen hx d (atXLen_or ..), writeResult_atXLen hx d (atXLen_and ..),
    writeResult_atWord hx d (atWord_eq (opSub_eq ..)), writeResult_atWord hx d (atWord_eq (opAdd_eq ..)),
    writeResult_atXLen hx rd (atXLen_add ..), writeResult_atXLen hx rd (atXLen_add ..)⟩
  · rw [zext_eq_ofIntX]; exact atXLen_add_ofIntX ..
  · rw [himm, atXLen_add_ofIntX]
  · rw [himm, atXLen_add_ofIntX]
  · rw [himm, atWord_add_ofIntX]
  · rw [himm, atXLen_add_ofIntX]
  · rw [sext_eq_ofIntX]; exact atXLen_add_ofIntX ..
  · rw [himm, atXLen_and]

/-- Settles O39. -/
theorem compressedTransfersTransfer : Obligations.CompressedTransfersTransfer := by
  intro s rs1 rs1' off boff hx xl link a z reg
  have hreg : jalrTarget xl (s.src1 rs1) 0 = reg := by
    rw [← ofIntX_zero xl, jalrTarget_ofIntX, add_zero]
  exact ⟨jumpLink_two hx 1 (addOffset_sext ..), jumpLink_two hx 0 (addOffset_sext ..), jumpLink_two hx 0 hreg,
    jumpLink_two hx 1 hreg, branchIf_sext beq_iff_eq s boff, branchIf_sext bne_iff_ne s boff⟩

end Sys2Proof.Machine
end

section
/-! PROOFS. Main memory, loads and stores, atomics and the system instructions (R83 to R107, R255 to R326, R334 to R366, R391
to R405). -/

namespace Sys2Proof.Machine

/-! ### Numbers and bytes (R103) -/

theorem leNumber_lt (f : Nat → Byte) (n : Nat) : leNumber f n < 2 ^ (8 * n) := by
  induction n with
  | zero => simp [leNumber]
  | succ n ih =>
    have hb := (f n).isLt
    have hpow : (256 : Nat) ^ n = 2 ^ (8 * n) := by rw [pow_mul]; rfl
    have hle : ((f n).toNat + 1) * 2 ^ (8 * n) ≤ 2 ^ 8 * 2 ^ (8 * n) := Nat.mul_le_mul_right _ hb
    have hsucc : 2 ^ (8 * (n + 1)) = 2 ^ 8 * 2 ^ (8 * n) := by rw [← pow_add]; congr 1; ring
    rw [leNumber, hpow, hsucc]
    linarith

theorem State.memNumber_lt (a : Word) (n : Nat) (s : State) : s.memNumber a n < 2 ^ (8 * n) := leNumber_lt ..

theorem leNumber_congr {f g : Nat → Byte} {n : Nat} (h : ∀ i, i < n → f i = g i) : leNumber f n = leNumber g n := by
  induction n with
  | zero => rfl
  | succ n ih => rw [leNumber, leNumber, ih fun i hi => h i (by omega), h n (by omega)]

/-- The bytes of a number give the number back, modulo what they can hold. -/
theorem leNumber_byteOf (v n : Nat) : leNumber (byteOf v) n = v % 2 ^ (8 * n) := by
  induction n with
  | zero => simp [leNumber, Nat.mod_one]
  | succ n ih =>
    have hpow : (256 : Nat) ^ n = 2 ^ (8 * n) := by rw [pow_mul]; rfl
    have hsucc : 2 ^ (8 * (n + 1)) = 2 ^ (8 * n) * 2 ^ 8 := pow_add ..
    rw [leNumber, ih, byteOf, BitVec.toNat_ofNat, hpow, hsucc, Nat.mod_mul, Nat.mul_comm (2 ^ (8 * n))]

/-- The XLEN-bit value of a natural number. -/
theorem toNat_ofIntX_natCast (xl : XLen) (k : Nat) : (ofIntX xl k).toNat = k % 2 ^ xl.bits := by
  rw [← XLen.wrap_ofNat, toNat_wrap, BitVec.toNat_ofNat, Nat.mod_mod_of_dvd _ (Nat.pow_dvd_pow 2 (xlen_bits_le xl))]

/-- The one byte at an address of XLEN bits. -/
theorem State.memNumber_one {s : State} {a : Word} (ha : s.cfg.xlen.Fits a) :
    s.memNumber a 1 = (s.mem.byte a.toNat).toNat := by
  rw [memNumber, leNumber, leNumber, addrAt, Nat.add_zero, Nat.mod_eq_of_lt ha, pow_zero, mul_one, zero_add]

/-- The signed value of a number of `n` bytes. -/
theorem toInt_of_toNat {n k : Nat} (hn : 0 < n) {v : BitVec (8 * n)} (hv : v.toNat = k) : v.toInt = signedBytes n k := by
  have hlt : k < 2 ^ (8 * n) := hv ▸ v.isLt
  have hhalf : 2 ^ (8 * n) = 2 * 2 ^ (8 * n - 1) := by rw [← pow_succ']; congr 1; omega
  rw [BitVec.toInt_eq_toNat_cond, hv, signedBytes]
  push_cast
  by_cases hneg : k < 2 ^ (8 * n - 1)
  · rw [if_pos (by omega), if_pos hneg]
  · rw [if_neg (by omega), if_neg hneg]

theorem toNat_ofNat_setWidth {n k : Nat} (hn : n ≤ 8) (hk : k < 2 ^ (8 * n)) :
    ((BitVec.ofNat 64 k).setWidth (8 * n)).toNat = k := by
  have h64 : 2 ^ (8 * n) ≤ 2 ^ 64 := Nat.pow_le_pow_right (by decide) (by omega)
  rw [BitVec.toNat_setWidth, BitVec.toNat_ofNat, Nat.mod_eq_of_lt (by omega : k < 2 ^ 64), Nat.mod_eq_of_lt hk]

/-- The sign extension of a number of `n` bytes (R259 to R261). -/
theorem signExt_ofNat (xl : XLen) {n k : Nat} (h0 : 0 < n) (hn : n ≤ 8) (hk : k < 2 ^ (8 * n)) :
    signExt xl (8 * n) (BitVec.ofNat 64 k) = ofIntX xl (signedBytes n k) := by
  rw [signExt, sext_eq_ofIntX, toInt_of_toNat h0 (toNat_ofNat_setWidth hn hk)]

/-- The zero extension of a number of `n` bytes (R262 to R265). -/
theorem zeroExt_ofNat (xl : XLen) {n k : Nat} (hn : n ≤ 8) (hk : k < 2 ^ (8 * n)) :
    zeroExt xl (8 * n) (BitVec.ofNat 64 k) = ofIntX xl k := by
  rw [zeroExt, zext_eq_ofIntX, toNat_ofNat_setWidth hn hk]

theorem pos_of_mem_sizes {n : Nat} (hn : n ∈ [1, 2, 4, 8]) : 0 < n := (by decide : ∀ n ∈ [1, 2, 4, 8], 0 < n) n hn

/-! ### Loads and stores (R255 to R270) -/

section
variable {s : State} (hx : AtEx s) (rd : Reg) {a : Word}
include hx

theorem loadInto_signed {n : Nat} (hn : n ∈ [1, 2, 4, 8]) (hm : MainMemory s.cfg a n) :
    ∃ t, loadInto rd a n (signExt s.cfg.xlen (8 * n)) s = .next t ∧
      OnlyResult rd (ofIntX s.cfg.xlen (signedBytes n (s.memNumber a n))) s t := by
  rw [← signExt_ofNat _ (pos_of_mem_sizes hn) (le_eight_of_mem_sizes hn) (s.memNumber_lt a n)]
  exact loadInto_main hn hm hx rd _ fun _ => fits_sext ..

theorem loadInto_unsigned {n : Nat} (hn : n ∈ [1, 2, 4, 8]) (hm : MainMemory s.cfg a n) :
    ∃ t, loadInto rd a n (zeroExt s.cfg.xlen (8 * n)) s = .next t ∧
      OnlyResult rd (ofIntX s.cfg.xlen (s.memNumber a n)) s t := by
  rw [← zeroExt_ofNat _ (le_eight_of_mem_sizes hn) (s.memNumber_lt a n)]
  exact loadInto_main hn hm hx rd _ fun _ => fits_zext ..

end

/-- Settles O25. -/
theorem loadsReadMainMemory : Obligations.LoadsReadMainMemory := by
  intro s rd rs1 imm hx xl ea
  exact ⟨loadInto_signed hx rd (n := 1) (by decide), loadInto_signed hx rd (n := 2) (by decide),
    loadInto_signed hx rd (n := 4) (by decide), loadInto_unsigned hx rd (n := 1) (by decide),
    loadInto_unsigned hx rd (n := 2) (by decide), loadInto_unsigned hx rd (n := 4) (by decide),
    loadInto_unsigned hx rd (n := 8) (by decide)⟩

/-- Settles O26. -/
theorem storesWriteMainMemory : Obligations.StoresWriteMainMemory := by
  intro s rs1 rs2 imm hw ea ht v
  exact ⟨fun hm => storeTo_main v (by decide) hm ht hw, fun hm => storeTo_main v (by decide) hm ht hw,
    fun hm => storeTo_main v (by decide) hm ht hw, fun hm => storeTo_main v (by decide) hm ht hw⟩

/-- Settles O40. -/
theorem compressedLoadsAndStoresAccessMemory : Obligations.CompressedLoadsAndStoresAccessMemory := by
  intro s rd rs2 rd' rs1' u7 u8 u9 hx hw xl w d wsp dsp
  exact ⟨fun hm => ⟨loadInto_signed hx _ (n := 4) (by decide) hm, fun ht => storeTo_main _ (by decide) hm ht hw⟩,
    fun hm => ⟨loadInto_unsigned hx _ (n := 8) (by decide) hm, fun ht => storeTo_main _ (by decide) hm ht hw⟩,
    fun hm => ⟨loadInto_signed hx rd (n := 4) (by decide) hm, fun ht => storeTo_main _ (by decide) hm ht hw⟩,
    fun hm => ⟨loadInto_unsigned hx rd (n := 8) (by decide) hm, fun ht => storeTo_main _ (by decide) hm ht hw⟩⟩

/-- Every byte of a value just written (R103). -/
theorem byte_writeBytes_leBytes (xl : XLen) {m : Memory} (hw : m.wf = true) (a v : Word) {n i : Nat} (hn : n ≤ 8)
    (hi : i < n) : (m.writeBytes xl a (leBytes n v)).byte (addrAt xl a i) = byteOf v.toNat i := by
  have hlen : (leBytes n v).length ≤ 2 ^ xl.bits := by
    rw [length_leBytes]
    exact hn.trans (by cases xl <;> decide)
  rw [Memory.byte_writeBytes_at xl hw a _ i (by rwa [length_leBytes]) hlen, leBytes_byteOf]

/-- Settles O43. -/
theorem memoryRoundTrip : Obligations.MemoryRoundTrip := by
  intro s a v n hn hm ht hw
  have h8 := le_eight_of_mem_sizes hn
  let t := { s with mem := s.mem.writeBytes s.cfg.xlen a (leBytes n v), dmiInvalidate := true }
  have hbyte (i : Nat) (hi : i < n) : t.mem.byte (addrAt s.cfg.xlen a i) = byteOf v.toNat i :=
    byte_writeBytes_leBytes s.cfg.xlen hw a v h8 hi
  refine ⟨t, memWrite_main v hn hm ht, ?_, fun i hi hmi => ?_⟩
  · have hnum : t.memNumber a n = lowNumber n v := (leNumber_congr hbyte).trans (leNumber_byteOf ..)
    rw [memRead_main (s := t) hn hm, hnum]
  · have haddr : (ofIntX s.cfg.xlen (a.toNat + i)).toNat = addrAt s.cfg.xlen a i := by
      rw [← Nat.cast_add, toNat_ofIntX_natCast, addrAt]
    rw [memRead_main (s := t) (by decide) hmi, State.memNumber_one (s := t) (fits_ofIntX ..), haddr, hbyte i hi]

/-! ### Accesses outside main memory, and of unbound targets -/

/-- Settles O28. -/
theorem failedDataAccessesAreFatal : Obligations.FailedDataAccessesAreFatal := by
  intro s a v n hn hrun ha hout final
  have hn0 : n ≠ 0 := (pos_of_mem_sizes hn).ne'
  have hfatal : raiseBusError a s = .fault (.busError a final) := by rw [raiseBusError, State.withOutcome_of_running hrun]
  refine ⟨?_, fun ht => ?_⟩
  · rw [memRead, dataAccess, transport_read_outside .data hn ha hout, ← hfatal]
  · have hstatus : transport ⟨.data, .write, a, n, leBytes n v⟩ s = .addressError := by
      rw [transport_main ha (.inr ht)]
      simp [mainMemoryAccess, burstOk_of_mem_sizes hn, hn0, hout]
    rw [memWrite, dataAccess, hstatus, ← hfatal]

/-- Settles O46. -/
theorem unboundTargetsAnswerWithoutEffect : Obligations.UnboundTargetsAnswerWithoutEffect := by
  intro s tg a v n ha hb ht
  have htr (tx : Tx) (haddr : tx.addr = a) : transport tx s = unboundAccess tx s := by
    rw [transport, haddr, if_neg fun h => ht h.1, ha]
    exact if_pos hb
  refine ⟨?_, leValue (leBytes n (Config.draw s.draws)), ?_⟩
  · rw [memWrite, dataAccess, htr _ rfl]
    rfl
  · rw [memRead, dataAccess, htr _ rfl]
    rfl

/-! ### Fetches (R94) -/

/-- A fetch outside every device and outside main memory is fatal, with no descriptor held and with the granted one. -/
theorem fetch_outside {s : State} {pc : Word} (hdev : isDeviceAddr s.cfg pc = false)
    (hout : inMainMemory s.cfg pc 4 = false) (hmiss : s.dmi.any (·.covers pc) = false) :
    fetch pc s = .stopped (raiseFetchError pc s) := by
  have ha : targetAt pc = none := by simpa using (Bool.or_eq_false_iff.1 hdev).1
  rw [fetch, if_neg (by simp [hdev]), if_neg (by simp [hmiss]),
    transport_read_outside .instruction (by decide) ha hout]

/-- Settles O44. -/
theorem dmiFetchesEqualBusFetches : Obligations.DmiFetchesEqualBusFetches := by
  intro s pc w hwf _
  have hmain (hdev : isDeviceAddr s.cfg pc = false) (hin : inMainMemory s.cfg pc 4 = true) (d : Option DmiDescriptor) :
      ∃ e, fetch pc { s with dmi := d } = .ok (BitVec.ofNat 32 (s.memNumber pc 4)) { s with dmi := e } :=
    fetch_main (s := { s with dmi := d }) hdev hin
  refine ⟨?_, fun hdev hin d _ => hmain hdev hin d⟩
  cases hdev : isDeviceAddr s.cfg pc with
  | true => simp [fetch, hdev]
  | false =>
    cases hin : inMainMemory s.cfg pc 4 with
    | true =>
      obtain ⟨e, he⟩ := hmain hdev hin none
      obtain ⟨e', he'⟩ := hmain hdev hin (some (dmiGrant s.cfg))
      simp [he, he']
    | false =>
      have hcov : (dmiGrant s.cfg).covers pc = false := by
        refine Bool.eq_false_iff.2 fun h => Bool.eq_false_iff.1 hin ?_
        exact inMainMemory_of_dmiGrant_covers (Config.memSize_le_of_wf hwf) h
      rw [fetch_outside (s := { s with dmi := none }) hdev hin rfl,
        fetch_outside (s := { s with dmi := some (dmiGrant s.cfg) }) hdev hin (by simpa using hcov)]
      simp

/-! ### Effects one after the other -/

theorem SameMachine.trans {s t u : State} (h : SameMachine s t) (h' : SameMachine t u) : SameMachine s u where
  cfg := h'.cfg.trans h.cfg
  two := h'.two.trans h.two
  six := by rw [h'.six, h.six]
  irq := h'.irq.trans h.irq
  stats := h'.stats.trans h.stats
  dmi := h'.dmi.trans h.dmi
  schedule := h'.schedule.trans h.schedule
  timer := h'.timer.trans h.timer
  plic := h'.plic.trans h.plic
  dma := h'.dma.trans h.dma
  uart := h'.uart.trans h.uart
  hook := h'.hook.trans h.hook
  outcome := h'.outcome.trans h.outcome

theorem SameSpecial.trans {s t u : State} (h : SameSpecial s t) (h' : SameSpecial t u) : SameSpecial s u :=
  ⟨h'.csr.trans h.csr, h'.reservation.trans h.reservation, h'.trace.trans h.trace, h'.draws.trans h.draws⟩

theorem SameMachine.reserve {s t : State} (h : SameMachine s t) (r : Option Reservation) :
    SameMachine s (t.reserve r) :=
  ⟨h.cfg, h.two, h.six, h.irq, h.stats, h.dmi, h.schedule, h.timer, h.plic, h.dma, h.uart, h.hook, h.outcome⟩

theorem SameMachine.reg_eq {s t : State} (h : SameMachine s t) : t.six.reg = s.six.reg := by rw [h.six]

/-- With no register result no register changes. -/
theorem regsAfter_none {s t : State} : RegsAfter none s t ↔ ∀ r, t.x r = s.x r := by
  cases hp : s.cfg.pipe <;> simp only [RegsAfter, hp]

theorem robAfter_none {s t : State} :
    RobAfter none s t ↔ t.six.rob.length = s.six.rob.length ∧ ∀ j, t.robAt j = s.robAt j := by
  cases hp : s.cfg.pipe <;> simp only [RobAfter, hp]

theorem memAfter_none {s t : State} :
    MemAfter none s t ↔ (∀ b, t.mem.byte b = s.mem.byte b) ∧ t.dmiInvalidate = s.dmiInvalidate := by
  cases hp : s.cfg.pipe <;> simp only [MemAfter, hp]

theorem storeBufferAfter_none {s t : State} : StoreBufferAfter none s t ↔ t.six.sb = s.six.sb := by
  cases hp : s.cfg.pipe <;> simp only [StoreBufferAfter, hp]

/-- A store, then a register result. -/
theorem Effect.trans_result {res : Option (Reg × Word)} {st : Option StoreOf} {s t u : State} (h : Effect none st s t)
    (h' : Effect res none t u) : Effect res st s u where
  regs := fun r => by
    have hr := h'.regs r
    simpa only [h.rest.cfg, regsAfter_none.1 h.regs] using hr
  rob := ⟨h'.rob.1.trans h.rob.1, fun j => by
    have hj := h'.rob.2 j
    simpa only [h.rest.cfg, (robAfter_none.1 h.rob).2, h.rest.reg_eq] using hj⟩
  mem := by
    have hm := h.mem
    simpa only [MemAfter, (memAfter_none.1 h'.mem).1, (memAfter_none.1 h'.mem).2] using hm
  sb := (storeBufferAfter_none.1 h'.sb).trans h.sb
  rest := h.rest.trans h'.rest

theorem Effect.atEx {res : Option (Reg × Word)} {st : Option StoreOf} {s t : State} (h : Effect res st s t)
    (hx : AtEx s) : AtEx t := by
  intro hp
  rw [h.rest.reg_eq, h.rob.1]
  exact hx (h.rest.cfg ▸ hp)

/-- The reservation is none of the fields an `Effect` speaks of. -/
theorem Effect.reserve {res : Option (Reg × Word)} {st : Option StoreOf} {s t : State} (h : Effect res st s t)
    (r : Option Reservation) : Effect res st s (t.reserve r) :=
  ⟨h.regs, h.rob, h.mem, h.sb, h.rest.reserve r⟩

/-- A store to which `writeDest` adds a register result. -/
theorem OnlyStore.writeDest {w : StoreOf} {s t : State} (h : OnlyStore w s t) (hx : AtEx s) {v : Word}
    (hv : s.cfg.xlen.Fits v) (rd : Reg) : ResultAndStore rd v w s (t.writeDest rd v) := by
  have h' := onlyResult_writeDest (h.effect.atEx hx) (h.effect.rest.cfg ▸ hv) rd
  exact ⟨h.effect.trans_result h'.effect, h.special.trans h'.special, h'.ex.trans h.ex⟩

/-! ### LR and SC (R305, R306, R316, R317) -/

theorem fits_one (xl : XLen) : xl.Fits 1 := by cases xl <;> decide
theorem fits_zero (xl : XLen) : xl.Fits 0 := by cases xl <;> decide

/-- What an LR of `n` bytes at `a` leaves. -/
theorem loadReserved_effect {s : State} (hx : AtEx s) (rd : Reg) {a : Word} {n : Nat} (hn : n ∈ [1, 2, 4, 8])
    (hm : MainMemory s.cfg a n) : ∃ t, loadReserved rd a n s = .next t ∧
      Effect (some (rd, ofIntX s.cfg.xlen (signedBytes n (s.memNumber a n)))) none s t ∧
      t.reservation = some ⟨a, n⟩ ∧ t.csr = s.csr ∧ t.trace = s.trace ∧ t.draws = s.draws ∧ t.ex = s.ex := by
  obtain ⟨t, ht, h⟩ := loadReserved_main hn hm hx rd
  rw [signExt_ofNat _ (pos_of_mem_sizes hn) (le_eight_of_mem_sizes hn) (s.memNumber_lt a n)] at h
  exact ⟨_, ht, h.effect.reserve _, rfl, h.special.csr, h.special.trace, h.special.draws, h.ex⟩

/-- What a successful SC of `n` bytes at `a` leaves. -/
theorem storeConditional_held_effect {s : State} (hx : AtEx s) (rd : Reg) {a : Word} {n : Nat} (v : Word)
    (hn : n ∈ [1, 2, 4, 8]) (hm : MainMemory s.cfg a n) (ht : a ≠ s.cfg.tohostAddr) (hw : s.mem.wf = true)
    (hr : s.reservation = some ⟨a, n⟩) : ∃ t, storeConditional rd a n v s = .next t ∧
      Effect (some (rd, 0)) (some ⟨a, n, lowNumber n v⟩) s t ∧ t.reservation = none ∧ t.csr = s.csr ∧
      t.trace = s.trace ∧ t.draws = s.draws ∧ t.ex = s.ex := by
  obtain ⟨t, hs, hnext⟩ := storeConditional_held v hn hm ht hw hr rd
  have h := hs.writeDest hx (fits_zero _) rd
  exact ⟨_, hnext, h.effect.reserve none, rfl, h.special.csr, h.special.trace, h.special.draws, h.ex⟩

theorem robAt_cancelStore {s : State} (hx : AtEx s) (j : Nat) :
    s.cancelStore.robAt j = if s.cfg.pipe = .sixStage ∧ j = s.six.reg.l4.robIndex
      then { s.robAt j with isStore := false } else s.robAt j := by
  cases hp : s.cfg.pipe with
  | twoStage => simp [State.cancelStore, hp]
  | sixStage =>
    by_cases hj : j = s.six.reg.l4.robIndex
    · subst hj; simp [State.cancelStore, hp, State.robAt, hx hp]
    · simp [State.cancelStore, hp, State.robAt, hj, Ne.symm hj]

theorem x_cancelStore (s : State) (r : Reg) : s.cancelStore.x r = s.x r := by simp [State.x]

theorem length_rob_cancelStore (s : State) : s.cancelStore.six.rob.length = s.six.rob.length := by
  cases hp : s.cfg.pipe <;> simp [State.cancelStore, hp]

theorem sb_cancelStore (s : State) : s.cancelStore.six.sb = s.six.sb := by
  cases hp : s.cfg.pipe <;> simp [State.cancelStore, hp]

/-- A failed SC keeps all but the ROB entry's `is_store`. -/
theorem sameMachine_cancelStore (s : State) : SameMachine s s.cancelStore := by
  constructor
  case six => cases hp : s.cfg.pipe <;> simp [State.cancelStore, hp]
  all_goals simp

theorem storeConditional_lost_effect {s : State} (hx : AtEx s) (rd : Reg) {a : Word} {n : Nat} (v : Word)
    (hr : s.reservation ≠ some ⟨a, n⟩) : ∃ t, storeConditional rd a n v s = .next t ∧
      RegsAfter (some (rd, 1)) s t ∧ MemAfter none s t ∧ StoreBufferAfter none s t ∧ SameMachine s t ∧
      t.reservation = none ∧ t.csr = s.csr ∧ t.trace = s.trace ∧ t.draws = s.draws ∧ t.ex = s.ex ∧
      ∀ j, t.robAt j = if s.cfg.pipe = .sixStage ∧ j = s.six.reg.l4.robIndex
        then { s.robAt j with result := 1, isStore := false } else s.robAt j := by
  have hsame := sameMachine_cancelStore s
  have hx' : AtEx s.cancelStore := by
    intro hp
    rw [hsame.reg_eq, length_rob_cancelStore]
    exact hx (hsame.cfg ▸ hp)
  have h := onlyResult_writeDest hx' (fits_one _) rd
  have hmem := memAfter_none.1 h.effect.mem
  have hsb := storeBufferAfter_none.1 h.effect.sb
  refine ⟨_, storeConditional_lost v hr rd, fun r => ?_, memAfter_none.2 ⟨fun b => ?_, ?_⟩, storeBufferAfter_none.2 ?_,
    (hsame.trans h.effect.rest).reserve none, rfl, by simp, by simp, by simp, by simp, fun j => ?_⟩
  · have hreg := h.effect.regs r
    simp only [State.cancelStore_cfg, x_cancelStore] at hreg
    exact hreg
  · exact (hmem.1 b).trans (by rw [State.cancelStore_mem])
  · exact hmem.2.trans (by rw [State.cancelStore_dmiInvalidate])
  · exact hsb.trans (sb_cancelStore s)
  · have hj := h.effect.rob.2 j
    refine Eq.trans hj ?_
    cases hp : s.cfg.pipe <;> by_cases hi : j = s.six.reg.l4.robIndex <;>
      simp [hsame.reg_eq, robAt_cancelStore hx, hp, hi]

/-- Settles O29. -/
theorem loadReservedAndStoreConditional : Obligations.LoadReservedAndStoreConditional := by
  intro s aq rl rd rs1 rs2 hx hw xl a reserved stored failed
  exact ⟨loadReserved_effect hx rd (by decide), loadReserved_effect hx rd (by decide),
    fun hm ht hr => storeConditional_held_effect hx rd _ (by decide) hm ht hw hr,
    fun hm ht hr => storeConditional_held_effect hx rd _ (by decide) hm ht hw hr,
    storeConditional_lost_effect hx rd _, storeConditional_lost_effect hx rd _⟩

/-! ### The AMOs (R304, R307 to R326) -/

/-- The low bytes of a register value. -/
theorem toNat_setWidth_bytes (n : Nat) (v : Word) : (v.setWidth (8 * n)).toNat = lowNumber n v := BitVec.toNat_setWidth ..

theorem lowNumber_setWidth {n : Nat} (hn : n ≤ 8) (v : BitVec (8 * n)) : lowNumber n (v.setWidth 64) = v.toNat := by
  rw [← toNat_setWidth_bytes, BitVec.setWidth_setWidth_of_le _ (by omega), BitVec.setWidth_eq]

section
variable {s : State} {a : Word} {n : Nat} (h : AmoReady a n s) (hn : n ∈ [1, 2, 4, 8]) (rd : Reg) (src : Word)
include h hn

/-- An AMO whose operation gives the number `new` of the old and the source number. -/
theorem amo_next (op : (n : Nat) → BitVec n → BitVec n → BitVec n) {new : Nat}
    (hop : ∀ x y : BitVec (8 * n), x.toNat = s.memNumber a n → y.toNat = lowNumber n src → (op (8 * n) x y).toNat = new) :
    ∃ t, amo rd a n op src s = .next t ∧ AmoDone rd a n (s.memNumber a n) new s t := by
  have h8 := le_eight_of_mem_sizes hn
  have hold := s.memNumber_lt a n
  obtain ⟨t, hs, hnext⟩ := amo_main op src hn h.mem h.notTohost h.wf rd
  rw [lowNumber_setWidth h8, hop _ _ (toNat_ofNat_setWidth h8 hold) (toNat_setWidth_bytes n src)] at hs
  refine ⟨_, hnext, ?_⟩
  rw [signExt_ofNat _ (pos_of_mem_sizes hn) h8 hold]
  exact hs.writeDest h.atEx (fits_ofIntX ..) rd

theorem amo_swap_next : ∃ t, amo rd a n opSwap src s = .next t ∧
    AmoDone rd a n (s.memNumber a n) (lowNumber n src) s t :=
  amo_next h hn rd src opSwap fun _ _ _ hy => hy

theorem amo_add_next : ∃ t, amo rd a n opAdd src s = .next t ∧
    AmoDone rd a n (s.memNumber a n) ((s.memNumber a n + lowNumber n src) % 2 ^ (8 * n)) s t :=
  amo_next h hn rd src opAdd fun x y hx hy => by rw [opAdd, BitVec.toNat_add, hx, hy]

theorem amo_xor_next : ∃ t, amo rd a n opXor src s = .next t ∧
    AmoDone rd a n (s.memNumber a n) (s.memNumber a n ^^^ lowNumber n src) s t :=
  amo_next h hn rd src opXor fun x y hx hy => by rw [opXor, BitVec.toNat_xor, hx, hy]

theorem amo_and_next : ∃ t, amo rd a n opAnd src s = .next t ∧
    AmoDone rd a n (s.memNumber a n) (s.memNumber a n &&& lowNumber n src) s t :=
  amo_next h hn rd src opAnd fun x y hx hy => by rw [opAnd, BitVec.toNat_and, hx, hy]

theorem amo_or_next : ∃ t, amo rd a n opOr src s = .next t ∧
    AmoDone rd a n (s.memNumber a n) (s.memNumber a n ||| lowNumber n src) s t :=
  amo_next h hn rd src opOr fun x y hx hy => by rw [opOr, BitVec.toNat_or, hx, hy]

theorem amo_min_next : ∃ t, amo rd a n opMin src s = .next t ∧ AmoDone rd a n (s.memNumber a n)
    (if signedBytes n (s.memNumber a n) < signedBytes n (lowNumber n src) then s.memNumber a n else lowNumber n src) s t :=
  amo_next h hn rd src opMin fun x y hx hy => by
    rw [opMin, apply_ite BitVec.toNat, toInt_of_toNat (pos_of_mem_sizes hn) hx,
      toInt_of_toNat (pos_of_mem_sizes hn) hy, hx, hy]

theorem amo_max_next : ∃ t, amo rd a n opMax src s = .next t ∧ AmoDone rd a n (s.memNumber a n)
    (if signedBytes n (s.memNumber a n) > signedBytes n (lowNumber n src) then s.memNumber a n else lowNumber n src) s t :=
  amo_next h hn rd src opMax fun x y hx hy => by
    rw [opMax, apply_ite BitVec.toNat, toInt_of_toNat (pos_of_mem_sizes hn) hx,
      toInt_of_toNat (pos_of_mem_sizes hn) hy, hx, hy]

theorem amo_minu_next : ∃ t, amo rd a n opMinu src s = .next t ∧
    AmoDone rd a n (s.memNumber a n) (min (s.memNumber a n) (lowNumber n src)) s t :=
  amo_next h hn rd src opMinu fun x y hx hy => by
    rw [opMinu, apply_ite BitVec.toNat, hx, hy]
    split <;> omega

theorem amo_maxu_next : ∃ t, amo rd a n opMaxu src s = .next t ∧
    AmoDone rd a n (s.memNumber a n) (max (s.memNumber a n) (lowNumber n src)) s t :=
  amo_next h hn rd src opMaxu fun x y hx hy => by
    rw [opMaxu, apply_ite BitVec.toNat, hx, hy]
    split <;> omega

end

/-- Settles O30. -/
theorem wordAmosReadModifyWrite : Obligations.WordAmosReadModifyWrite := by
  intro s aq rl rd rs1 rs2 a h old src so ss
  have hn : 4 ∈ [1, 2, 4, 8] := by decide
  exact ⟨amo_swap_next h hn rd _, amo_add_next h hn rd _, amo_xor_next h hn rd _, amo_and_next h hn rd _,
    amo_or_next h hn rd _, amo_min_next h hn rd _, amo_max_next h hn rd _, amo_minu_next h hn rd _,
    amo_maxu_next h hn rd _⟩

/-- Settles O31. -/
theorem doublewordAmosReadModifyWrite : Obligations.DoublewordAmosReadModifyWrite := by
  intro s aq rl rd rs1 rs2 _ a h old src so ss
  have hn : 8 ∈ [1, 2, 4, 8] := by decide
  exact ⟨amo_swap_next h hn rd _, amo_add_next h hn rd _, amo_xor_next h hn rd _, amo_and_next h hn rd _,
    amo_or_next h hn rd _, amo_min_next h hn rd _, amo_max_next h hn rd _, amo_minu_next h hn rd _,
    amo_maxu_next h hn rd _⟩

/-! ### CSR and system instructions (R391 to R405) -/

theorem zext_uimm (xl : XLen) (uimm : BitVec 5) : xl.zext uimm = BitVec.ofNat 64 uimm.toNat := by
  have hlt := uimm.isLt
  have hfits : xl.Fits (uimm.setWidth 64) := by
    rw [XLen.Fits, BitVec.toNat_setWidth_of_le (by decide)]
    exact hlt.trans_le (Nat.pow_le_pow_right (by decide) (by cases xl <;> decide))
  rw [XLen.zext, wrap_of_fits hfits, BitVec.ofNat_toNat]

/-- Settles O33. -/
theorem csrInstructionsReadAndWrite : Obligations.CsrInstructionsReadAndWrite := by
  intro s rd rs1 csr uimm hx hw u
  have hu : s.cfg.xlen.zext uimm = u := zext_uimm ..
  rw [← hu]
  exact ⟨csrAccess_next hx hw rd csr fun _ => some (s.src1 rs1),
    csrAccess_next hx hw rd csr fun old => if rs1 = 0 then none else some (old ||| s.src1 rs1),
    csrAccess_next hx hw rd csr fun old => if rs1 = 0 then none else some (old &&& ~~~s.src1 rs1),
    csrAccess_next hx hw rd csr fun _ => some (s.cfg.xlen.zext uimm),
    csrAccess_next hx hw rd csr fun old => if uimm = 0 then none else some (old ||| s.cfg.xlen.zext uimm),
    csrAccess_next hx hw rd csr fun old => if uimm = 0 then none else some (old &&& ~~~s.cfg.xlen.zext uimm)⟩

/-- The fields no `Effect` speaks of may change. -/
theorem effect_frame (s : State) (ex : ExecResult) (csr : CsrFile) (trace : List Byte) :
    Effect none none s { s with ex := ex, csr := csr, trace := trace } where
  regs := regsAfter_none.2 fun _ => rfl
  rob := robAfter_none.2 ⟨rfl, fun _ => rfl⟩
  mem := memAfter_none.2 ⟨fun _ => rfl, rfl⟩
  sb := storeBufferAfter_none.2 rfl
  rest := ⟨rfl, rfl, rfl, rfl, rfl, rfl, rfl, rfl, rfl, rfl, rfl, rfl, rfl⟩

theorem sameSpecial_ex (s : State) (ex : ExecResult) : SameSpecial s { s with ex := ex } := ⟨rfl, rfl, rfl, rfl⟩

theorem addOffset_ofNat (xl : XLen) (a : Word) (k : Nat) :
    addOffset xl a (BitVec.ofNat 64 k) = ofIntX xl (a.toNat + k) := by
  refine atXLen_eq ?_
  rw [BitVec.setWidth_ofNat_of_le (xlen_bits_le xl), BitVec.ofInt_add, ofInt_toNat, BitVec.ofInt_natCast, opAdd]

/-- A list of naturals read as one of integers, as the statement of O34 writes its range. -/
theorem map_natCast (f : Int → Byte) (l : List Nat) :
    (l.map fun i : Nat => f i) = (do let i ← l; pure (i : Int) : List Int).map f := by
  rw [bind_pure_comp, List.map_eq_map, List.map_map]
  rfl

/-- Settles O34. -/
theorem ecallPerformsItsServices : Obligations.EcallPerformsItsServices := by
  intro s _
  refine ⟨fun hstop => ?_, fun hemit hmain => ?_, fun h1 h93 hemit => ?_⟩
  · exact ⟨_, if_pos hstop, effect_frame s _ s.csr s.trace, sameSpecial_ex s _, rfl⟩
  · have hnostop : ¬(s.x 17 = 1 ∨ s.x 17 = 93) := by
      rw [hemit.1]
      decide
    have hbyte (i : Nat) : (BitVec.ofNat 64 (s.memNumber (ofIntX s.cfg.xlen ((s.x 11).toNat + i)) 1)).setWidth 8 =
        s.mem.byte (ofIntX s.cfg.xlen ((s.x 11).toNat + i)).toNat := by
      rw [State.memNumber_one (fits_ofIntX ..), BitVec.setWidth_ofNat_of_le (by decide), BitVec.ofNat_toNat,
        BitVec.setWidth_eq]
    have hrun := emitBytes_main (a := s.x 11) (s.x 12).toNat (i := 0) (s := s) fun k hk => by
      rw [Nat.zero_add, addOffset_ofNat]
      exact hmain k hk
    simp only [Nat.zero_add, addOffset_ofNat, hbyte] at hrun
    exact ⟨_, (if_neg hnostop).trans ((if_pos hemit).trans hrun), effect_frame s s.ex s.csr _, rfl, rfl, rfl, rfl,
      congrArg (s.trace ++ ·) (map_natCast (fun i => s.mem.byte (ofIntX s.cfg.xlen ((s.x 11).toNat + i)).toNat) _)⟩
  · exact ⟨s, (if_neg (not_or.2 ⟨h1, h93⟩)).trans (if_neg hemit), nothing_refl s⟩

/-- Settles O35. -/
theorem breakpointsHaltAndFencesAreNops : Obligations.BreakpointsHaltAndFencesAreNops := by
  intro s fm pred succ rs1 rd imm _
  exact ⟨⟨_, rfl, effect_frame s _ s.csr s.trace, sameSpecial_ex s _, rfl⟩,
    ⟨_, rfl, effect_frame s _ s.csr s.trace, sameSpecial_ex s _, rfl⟩, ⟨s, rfl, nothing_refl s⟩,
    ⟨s, rfl, nothing_refl s⟩, ⟨s, rfl, nothing_refl s⟩⟩

/-- Settles O37. -/
theorem mretReturns : Obligations.MretReturns := by
  intro s _
  exact ⟨_, rfl, effect_frame s _ _ s.trace, rfl, rfl, rfl, rfl, rfl⟩

end Sys2Proof.Machine
end

section
/-! PROOFS. The devices and the DMA engine (R127 to R134, R450 to R462). -/

namespace Sys2Proof.Machine

/-! ### The timer's two windows (R450 to R452) -/

/-- What a Read of four bytes answers. -/
theorem leValue_leBytes_setWidth (w : BitVec 32) : leValue (leBytes 4 (w.setWidth 64)) = BitVec.ofNat 64 w.toNat := by
  rw [← BitVec.ofNat_toNat, leValue_leBytes_four_ofNat w.isLt]

theorem toNat_lowHalf (r : BitVec 64) : (lowHalf r).toNat = r.toNat % 2 ^ 32 := BitVec.toNat_setWidth ..

theorem toNat_highHalf (r : BitVec 64) : (highHalf r).toNat = r.toNat / 2 ^ 32 := by
  rw [highHalf, BitVec.toNat_setWidth, BitVec.toNat_ushiftRight, Nat.shiftRight_eq_div_pow]
  have hlt := r.isLt
  omega

/-- Two halves side by side. -/
theorem append_eq_ofNat (hi lo : BitVec 32) : hi ++ lo = BitVec.ofNat 64 (hi.toNat * 2 ^ 32 + lo.toNat) := by
  refine BitVec.eq_of_toNat_eq ?_
  have hhi := hi.isLt
  have hlo := lo.isLt
  rw [BitVec.toNat_append, ← Nat.shiftLeft_add_eq_or_of_lt hlo, Nat.shiftLeft_eq, BitVec.toNat_ofNat,
    Nat.mod_eq_of_lt (by omega)]

section
variable {s : State} (v : Word) {a : Word} {tg : Target} (r : TimerReg) (ha : targetAt a = some tg)
  (hb : tg ∉ s.cfg.unbound) (ht : targetAt s.cfg.tohostAddr = none)
include ha hb

/-- An access of a part of a timer register through either window. -/
theorem memRead_timer {n : Nat} (p : TimerPart)
    (hport : deviceRead tg (a - BitVec.ofNat 64 (targetBase tg)).toNat n s = timerRead (some (r, p)) s) :
    memRead a n s = .ok (leValue (leBytes n (partOf (s.timer.get r) p))) s := by
  rw [memRead_device n ha hb, hport, timerRead]

include ht

theorem memWrite_timer {n : Nat} (p : TimerPart)
    (hport : ∀ w, deviceWrite tg (a - BitVec.ofNat 64 (targetBase tg)).toNat n w s = timerWrite (some (r, p)) w s) :
    memWrite a n v s = .ok 0 { s with timer := s.timer.set (setPart (s.timer.get r) (leValue (leBytes n v)) p) r } := by
  rw [memWrite_device n v ha hb (ne_tohost ht ha), hport, timerWrite]

/-- The low half of a timer register. -/
theorem timer_low
    (hr : deviceRead tg (a - BitVec.ofNat 64 (targetBase tg)).toNat 4 s = timerRead (some (r, .low)) s)
    (hw : ∀ w, deviceWrite tg (a - BitVec.ofNat 64 (targetBase tg)).toNat 4 w s = timerWrite (some (r, .low)) w s) :
    memRead a 4 s = .ok (BitVec.ofNat 64 ((s.timer.get r).toNat % 2 ^ 32)) s ∧
      memWrite a 4 v s = .ok 0 { s with
        timer := s.timer.set (BitVec.ofNat 64 ((s.timer.get r).toNat / 2 ^ 32 * 2 ^ 32 + lowNumber 4 v)) r } := by
  rw [memRead_timer r ha hb .low hr, memWrite_timer v r ha hb ht .low hw]
  simp only [partOf, setPart, setLowHalf, leValue_leBytes_setWidth, toNat_lowHalf, setWidth_leValue_leBytes_four,
    append_eq_ofNat, toNat_highHalf, toNat_setWidth_eq_lowNumber_four, and_self]

/-- The high half of a timer register. -/
theorem timer_high
    (hr : deviceRead tg (a - BitVec.ofNat 64 (targetBase tg)).toNat 4 s = timerRead (some (r, .high)) s)
    (hw : ∀ w, deviceWrite tg (a - BitVec.ofNat 64 (targetBase tg)).toNat 4 w s = timerWrite (some (r, .high)) w s) :
    memRead a 4 s = .ok (BitVec.ofNat 64 ((s.timer.get r).toNat / 2 ^ 32)) s ∧
      memWrite a 4 v s = .ok 0 { s with
        timer := s.timer.set (BitVec.ofNat 64 (lowNumber 4 v * 2 ^ 32 + (s.timer.get r).toNat % 2 ^ 32)) r } := by
  rw [memRead_timer r ha hb .high hr, memWrite_timer v r ha hb ht .high hw]
  simp only [partOf, setPart, setHighHalf, leValue_leBytes_setWidth, toNat_lowHalf, setWidth_leValue_leBytes_four,
    append_eq_ofNat, toNat_highHalf, toNat_setWidth_eq_lowNumber_four, and_self]

/-- A whole timer register, by an access of eight bytes. -/
theorem timer_whole
    (hr : deviceRead tg (a - BitVec.ofNat 64 (targetBase tg)).toNat 8 s = timerRead (some (r, .whole)) s)
    (hw : ∀ w, deviceWrite tg (a - BitVec.ofNat 64 (targetBase tg)).toNat 8 w s = timerWrite (some (r, .whole)) w s) :
    memRead a 8 s = .ok (s.timer.get r) s ∧ memWrite a 8 v s = .ok 0 { s with timer := s.timer.set v r } := by
  have hwhole (w : Word) : leValue (leBytes 8 w) = w := by
    rw [leValue_leBytes 8 (by decide), BitVec.setWidth_eq, BitVec.setWidth_eq]
  rw [memRead_timer r ha hb .whole hr, memWrite_timer v r ha hb ht .whole hw]
  simp only [partOf, setPart, hwhole, and_self]

end

/-- Settles O47. Each address is a port of its window by evaluation. -/
theorem timerWindowsShareTheRegisters : Obligations.TimerWindowsShareTheRegisters := by
  intro s v hc hl ht low high withLow withHigh cmp time
  refine ⟨List.forall_mem_cons.2 ⟨?_, List.forall_mem_singleton.2 ?_⟩,
    List.forall_mem_cons.2 ⟨?_, List.forall_mem_singleton.2 ?_⟩,
    List.forall_mem_cons.2 ⟨?_, List.forall_mem_singleton.2 ?_⟩,
    List.forall_mem_cons.2 ⟨?_, List.forall_mem_singleton.2 ?_⟩, ?_, ?_⟩
  · exact timer_low v .mtimecmp (tg := .clint) (by decide) hc ht rfl fun _ => rfl
  · exact timer_low v .mtimecmp (tg := .legacyTimer) (by decide) hl ht rfl fun _ => rfl
  · exact timer_high v .mtimecmp (tg := .clint) (by decide) hc ht rfl fun _ => rfl
  · exact timer_high v .mtimecmp (tg := .legacyTimer) (by decide) hl ht rfl fun _ => rfl
  · exact timer_low v .mtime (tg := .clint) (by decide) hc ht rfl fun _ => rfl
  · exact timer_low v .mtime (tg := .legacyTimer) (by decide) hl ht rfl fun _ => rfl
  · exact timer_high v .mtime (tg := .clint) (by decide) hc ht rfl fun _ => rfl
  · exact timer_high v .mtime (tg := .legacyTimer) (by decide) hl ht rfl fun _ => rfl
  · exact timer_whole v .mtimecmp (tg := .clint) (by decide) hc ht rfl fun _ => rfl
  · exact timer_whole v .mtime (tg := .clint) (by decide) hc ht rfl fun _ => rfl

/-! ### The PLIC's registers (R455) -/

/-- The PLIC after a Write of one of its registers. -/
def Plic.writePort (nsrc : Nat) (p : Plic) (v : BitVec 32) : PlicPort → Plic
  | .priority id => { p with priority := p.priority.set id v }
  | .pending k => { p with pending := setSourceWord nsrc p.pending k v }
  | .enable k => { p with enable := setSourceWord nsrc p.enable k v }
  | .threshold => { p with threshold := v }
  | .claimComplete => p.complete nsrc v.toNat

theorem plicWrite_some (port : PlicPort) (v : Word) (s : State) :
    plicWrite (some port) v s = .ok 0 { s with plic := s.plic.writePort s.cfg.plicNsrc (v.setWidth 32) port } := by
  cases port <;> rfl

/-- The PLIC's range, by byte offset. -/
theorem targetAt_plic {off : Nat} (h : off < 0x400000) : targetAt (0x0C000000 + BitVec.ofNat 64 off) = some .plic := by
  have hoff : (0x0C000000 + BitVec.ofNat 64 off : Word).toNat = 0x0C000000 + off := by
    rw [BitVec.toNat_add, BitVec.toNat_ofNat, show (0x0C000000 : Word).toNat = 0x0C000000 from rfl]
    omega
  have hclint : ¬targetContains .clint (0x0C000000 + off) = true := by
    simp only [targetContains, Bool.and_eq_true, decide_eq_true_eq]
    simp only [targetBase, targetSize]
    omega
  have hplic : targetContains .plic (0x0C000000 + off) = true := by
    simp only [targetContains, Bool.and_eq_true, decide_eq_true_eq]
    simp only [targetBase, targetSize]
    omega
  rw [targetAt, hoff, targets, List.find?_cons_of_neg (p := (targetContains · _)) hclint,
    List.find?_cons_of_pos (p := (targetContains · _)) hplic]

theorem plic_offset {off : Nat} (h : off < 0x400000) :
    (0x0C000000 + BitVec.ofNat 64 off - BitVec.ofNat 64 (targetBase .plic) : Word).toNat = off := by
  rw [show (BitVec.ofNat 64 (targetBase .plic) : Word) = 0x0C000000 from rfl, add_sub_cancel_left, BitVec.toNat_ofNat,
    Nat.mod_eq_of_lt (by omega)]

section
variable {s : State} {off : Nat} (h : off < 0x400000) {port : PlicPort} (hb : Target.plic ∉ s.cfg.unbound)
  (hp : plicPort s.cfg.plicNsrc off 4 = some port)
include h hb hp

theorem memWrite_plic (v : Word) (ht : targetAt s.cfg.tohostAddr = none) :
    memWrite (0x0C000000 + BitVec.ofNat 64 off) 4 v s =
      .ok 0 { s with plic := s.plic.writePort s.cfg.plicNsrc (v.setWidth 32) port } := by
  have ha := targetAt_plic h
  rw [memWrite_device 4 v ha hb (ne_tohost ht ha), plic_offset h, deviceWrite, hp, plicWrite_some,
    setWidth_leValue_leBytes_four]

theorem memRead_plic {w : BitVec 32} (hw : plicRead (some port) s = .ok (w.setWidth 64) s) :
    memRead (0x0C000000 + BitVec.ofNat 64 off) 4 s = .ok (BitVec.ofNat 64 w.toNat) s := by
  rw [memRead_device 4 (targetAt_plic h) hb, plic_offset h, deviceRead, hp, hw]
  simp only [leValue_leBytes_setWidth]

/-- A Write of a register, and a Read of it that gives `w`. -/
theorem plic_readBack (v : Word) (ht : targetAt s.cfg.tohostAddr = none) (w : BitVec 32)
    (hw : ∀ t, t.plic = s.plic.writePort s.cfg.plicNsrc (v.setWidth 32) port →
      plicRead (some port) t = .ok (w.setWidth 64) t) :
    ∃ t, memWrite (0x0C000000 + BitVec.ofNat 64 off) 4 v s = .ok 0 t ∧
      memRead (0x0C000000 + BitVec.ofNat 64 off) 4 t = .ok (BitVec.ofNat 64 w.toNat) t :=
  let t := { s with plic := s.plic.writePort s.cfg.plicNsrc (v.setWidth 32) port }
  ⟨t, memWrite_plic h hb hp v ht, memRead_plic (s := t) h hb hp (hw t rfl)⟩

end

theorem plicPort_priority {nsrc k : Nat} (hn : nsrc ≤ 1024) (hk : k < nsrc) :
    plicPort nsrc (4 * k) 4 = some (.priority k) := by
  have hdiv : 4 * k / 4 = k := by omega
  rw [plicPort, if_pos (by omega), if_pos (by omega), hdiv]

theorem plicPort_pending {nsrc k : Nat} (hn : nsrc ≤ 1024) (hk : 32 * k < nsrc) :
    plicPort nsrc (0x1000 + 4 * k) 4 = some (.pending k) := by
  have hdiv : (0x1000 + 4 * k) % 0x1000 / 4 = k := by omega
  rw [plicPort, if_pos (by omega), if_neg (by omega), if_pos (by omega), hdiv]

theorem plicPort_enable {nsrc k : Nat} (hn : nsrc ≤ 1024) (hk : 32 * k < nsrc) :
    plicPort nsrc (0x2000 + 4 * k) 4 = some (.enable k) := by
  have hdiv : (0x2000 + 4 * k) % 0x1000 / 4 = k := by omega
  rw [plicPort, if_pos (by omega), if_neg (by omega), if_neg (by omega), if_pos (by omega), hdiv]

theorem plicPort_threshold (nsrc : Nat) : plicPort nsrc 0x200000 4 = some .threshold := by simp [plicPort]

/-- A mask of the sources of word `k`: 1 to `nsrc - 1` (R455). -/
theorem getLsbD_sourceMask {nsrc k i : Nat} (hi : i < 32) :
    (sourceMask nsrc k).getLsbD i = (decide (1 ≤ 32 * k + i) && decide (32 * k + i < nsrc)) := by
  have hlow : (BitVec.ofNat 32 (2 ^ min 32 (nsrc - 32 * k) - 1)).getLsbD i = decide (32 * k + i < nsrc) := by
    rw [BitVec.getLsbD_ofNat, decide_eq_true hi, Bool.true_and, Nat.testBit_two_pow_sub_one]
    exact decide_eq_decide.2 (by omega)
  have hzero : (if k = 0 then ~~~1 else BitVec.allOnes 32).getLsbD i = decide (1 ≤ 32 * k + i) := by
    by_cases hk : k = 0
    · rw [if_pos hk, hk]
      simp only [BitVec.ofNat_eq_ofNat, BitVec.getLsbD_not, BitVec.getLsbD_one]
      cases i <;> simp [hi]
    · rw [if_neg hk, BitVec.getLsbD_allOnes, decide_eq_true hi]
      exact (decide_eq_true (by omega)).symm
  rw [sourceMask, BitVec.getLsbD_and, hlow, hzero, Bool.and_comm]

/-- What is kept of a Write of word `k`: the bits of its sources. -/
theorem getLsbD_masked (v : Word) {nsrc k i : Nat} (hi : i < 64) :
    (BitVec.ofNat 64 (v.setWidth 32 &&& sourceMask nsrc k).toNat : Word).getLsbD i =
      ((BitVec.ofNat 64 (lowNumber 4 v)).getLsbD i && decide (1 ≤ 32 * k + i) && decide (32 * k + i < nsrc)) := by
  rw [← toNat_setWidth_eq_lowNumber_four, BitVec.ofNat_toNat, BitVec.ofNat_toNat, BitVec.getLsbD_setWidth,
    BitVec.getLsbD_setWidth, BitVec.getLsbD_and, Bool.and_assoc]
  by_cases h32 : i < 32
  · rw [getLsbD_sourceMask h32, decide_eq_true hi, Bool.true_and, Bool.true_and]
  · rw [BitVec.getLsbD_of_ge (v.setWidth 32) i (by omega)]
    simp

theorem sourceWord_setSourceWord {nsrc k : Nat} (hk : k < 32) (bits : SourceBits) (v : BitVec 32) :
    sourceWord (setSourceWord nsrc bits k v) k = v &&& sourceMask nsrc k := by
  rw [setSourceWord, sourceWord_setIfInBounds hk, if_pos rfl]

/-- Settles O49. -/
theorem plicRegistersReadBack : Obligations.PlicRegistersReadBack := by
  intro s v k hb ht hn hlen n kept
  have haddr (a : Word) (base : Nat) (hbase : a = 0x0C000000 + BitVec.ofNat 64 base) :
      a + BitVec.ofNat 64 (4 * k) = 0x0C000000 + BitVec.ofNat 64 (base + 4 * k) := by
    rw [hbase, add_assoc, ← BitVec.ofNat_add]
  have hn32 : n = BitVec.ofNat 64 (v.setWidth 32).toNat := by rw [toNat_setWidth_eq_lowNumber_four]
  refine ⟨fun hk => ?_, fun hk => ?_, fun hk => ?_, ?_⟩
  · rw [hn32]
    exact plic_readBack (by omega) hb (plicPort_priority hn hk) v ht _ fun t htp => by
      simp [plicRead, htp, Plic.writePort, hlen, hk]
  · obtain ⟨t, hwrite, hread⟩ := plic_readBack (by omega) hb (plicPort_pending hn hk) v ht
      (v.setWidth 32 &&& sourceMask s.cfg.plicNsrc k) fun t htp => by
        simp only [plicRead, htp, Plic.writePort, sourceWord_setSourceWord (by omega : k < 32)]
    rw [haddr 0x0C001000 0x1000 (by decide)]
    exact ⟨t, _, hwrite, hread, fun i hi => getLsbD_masked v hi⟩
  · obtain ⟨t, hwrite, hread⟩ := plic_readBack (by omega) hb (plicPort_enable hn hk) v ht
      (v.setWidth 32 &&& sourceMask s.cfg.plicNsrc k) fun t htp => by
        simp only [plicRead, htp, Plic.writePort, sourceWord_setSourceWord (by omega : k < 32)]
    rw [haddr 0x0C002000 0x2000 (by decide)]
    exact ⟨t, _, hwrite, hread, fun i hi => getLsbD_masked v hi⟩
  · rw [hn32]
    exact plic_readBack (by decide) hb (plicPort_threshold s.cfg.plicNsrc) v ht _ fun t htp => by
      rw [plicRead, htp, Plic.writePort]

/-! ### The syscall hook and the byte sinks (R460 to R462) -/

/-- The hook after a Write of one of its registers; `status` is not stored. -/
def SyscallHook.writePort (h : SyscallHook) (v : BitVec 32) : HookPort → SyscallHook
  | .syscallNum => { h with syscallNum := v }
  | .arg => { h with arg := v }
  | .charOut => { h with charOut := v }
  | .status => h

theorem hookWrite_some (port : HookPort) (v : Word) (s : State) :
    hookWrite (some port) v s = .ok 0 { s with hook := s.hook.writePort (v.setWidth 32) port } := by
  cases port <;> rfl

section
variable {s : State} {a : Word} {port : HookPort} (ha : targetAt a = some .syscallHook)
  (hb : Target.syscallHook ∉ s.cfg.unbound)
  (hp : hookPort (a - BitVec.ofNat 64 (targetBase .syscallHook)).toNat 4 = some port)
include ha hb hp

theorem memWrite_hook (v : Word) (ht : targetAt s.cfg.tohostAddr = none) :
    memWrite a 4 v s = .ok 0 { s with hook := s.hook.writePort (v.setWidth 32) port } := by
  rw [memWrite_device 4 v ha hb (ne_tohost ht ha), deviceWrite, hp, hookWrite_some, setWidth_leValue_leBytes_four]

theorem memRead_hook {v : Word} {t : State} (hr : hookRead (some port) s = .ok ((v.setWidth 32).setWidth 64) t) :
    memRead a 4 s = .ok (BitVec.ofNat 64 (lowNumber 4 v)) t := by
  rw [memRead_device 4 ha hb, deviceRead, hp, hr]
  simp only [leValue_leBytes_setWidth, toNat_setWidth_eq_lowNumber_four]

/-- A word written is the one read back. -/
theorem hook_readBack (v : Word) (ht : targetAt s.cfg.tohostAddr = none) {h : SyscallHook}
    (hw : s.hook.writePort (v.setWidth 32) port = h)
    (hr : hookRead (some port) { s with hook := h } = .ok ((v.setWidth 32).setWidth 64) { s with hook := h }) :
    ∃ t, memWrite a 4 v s = .ok 0 t ∧ t = { s with hook := h } ∧
      memRead a 4 t = .ok (BitVec.ofNat 64 (lowNumber 4 v)) t :=
  ⟨_, hw ▸ memWrite_hook ha hb hp v ht, rfl, memRead_hook (s := { s with hook := h }) ha hb hp hr⟩

end

/-- The byte a sink takes of a Write (R460, R461). -/
theorem setWidth_leValue_leBytes_sink {n : Nat} (hn : n ∈ [1, 2, 4]) (v : Word) :
    (leValue (leBytes n v)).setWidth 8 = byteOf v.toNat 0 := by
  have hle : 8 ≤ 8 * n ∧ n ≤ 8 := (by decide : ∀ n ∈ [1, 2, 4], 8 ≤ 8 * n ∧ n ≤ 8) n hn
  rw [leValue_leBytes n hle.2, BitVec.setWidth_setWidth_of_le _ (by decide), BitVec.setWidth_setWidth_of_le _ hle.1,
    byteOf, pow_zero, Nat.div_one, BitVec.ofNat_toNat]

theorem sinkPort_zero {n : Nat} (hn : n ∈ [1, 2, 4]) : sinkPort 0 n = true :=
  (by decide : ∀ n ∈ [1, 2, 4], sinkPort 0 n = true) n hn

/-- Settles O50. -/
theorem hookWordsAndByteSinks : Obligations.HookWordsAndByteSinks := by
  refine ⟨?_, fun s v n hn hrun hu htr ht => ?_⟩
  · intro s v hb ht n
    exact ⟨hook_readBack (by decide) hb (port := .syscallNum) rfl v ht rfl rfl,
      hook_readBack (by decide) hb (port := .arg) rfl v ht rfl rfl,
      hook_readBack (by decide) hb (port := .charOut) rfl v ht rfl rfl,
      memWrite_hook (by decide) hb (port := .status) rfl v ht,
      memRead_hook (by decide) hb (port := .status) rfl rfl⟩
  · have huart : targetAt 0x10000000 = some .uart := by decide
    have htrace : targetAt 0x40000000 = some .trace := by decide
    have h0 : (0x10000000 - BitVec.ofNat 64 (targetBase .uart) : Word).toNat = 0 := by decide
    have h0' : (0x40000000 - BitVec.ofNat 64 (targetBase .trace) : Word).toNat = 0 := by decide
    rw [memWrite_device n v huart hu (ne_tohost ht huart), memWrite_device n v htrace htr (ne_tohost ht htrace),
      memRead_device n huart hu, memRead_device n htrace htr, h0, h0']
    simp only [deviceWrite, deviceRead, uartWrite, traceWrite, sinkPort_zero hn, if_true, State.emitUart,
      State.emitTrace, setWidth_leValue_leBytes_sink hn, refuseDeviceAccess_of_running hrun, and_self]

/-! ### The DMA engine (R131 to R134) -/

/-- A transaction of the DMA initiator over a range that meets no device goes to main memory. -/
theorem transport_dma {s : State} {tx : Tx} (hn : tx.len ≠ 0) (hmeet : meetsDevice s.cfg tx.addr tx.len = false) :
    transport tx s = mainMemoryAccess tx s :=
  transport_main (start_of_not_meetsDevice hn hmeet).1 (.inr (start_of_not_meetsDevice hn hmeet).2)

section
variable {s : State} {a : Word} {n : Nat} (bytes : List Byte) (hn : n ≠ 0)
include hn

/-- The DMA initiator may use any length (R88). -/
theorem mainMemoryAccess_dma_outside (cmd : Cmd) (hout : inMainMemory s.cfg a n = false) :
    mainMemoryAccess ⟨.dma, cmd, a, n, bytes⟩ s = .addressError := by
  simp [mainMemoryAccess, hn, hout]

theorem mainMemoryAccess_dma_read (hin : inMainMemory s.cfg a n = true) :
    mainMemoryAccess ⟨.dma, .read, a, n, bytes⟩ s = .ok (s.mem.readBytes s.cfg.xlen a n) s := by
  simp [mainMemoryAccess, hn, hin]

theorem mainMemoryAccess_dma_write (hin : inMainMemory s.cfg a n = true) :
    mainMemoryAccess ⟨.dma, .write, a, n, bytes⟩ s =
      .ok [] { s with mem := s.mem.writeBytes s.cfg.xlen a bytes, dmiInvalidate := true } := by
  simp [mainMemoryAccess, hn, hin]

end

/-- A range that meets a device is refused (R134). -/
theorem dmaTransfer_refused {s : State} {tx : Tx} {k : List Byte → State → Result}
    (h : meetsDevice s.cfg tx.addr tx.len = true) : dmaTransfer tx s k = refuseDma tx.addr s := if_pos h

/-- A range outside main memory aborts the transfer (R133). -/
theorem dmaTransfer_aborted {s : State} {cmd : Cmd} {a : Word} {n : Nat} {bytes : List Byte}
    {k : List Byte → State → Result} (hn : n ≠ 0) (hmeet : meetsDevice s.cfg a n = false)
    (hout : inMainMemory s.cfg a n = false) : dmaTransfer ⟨.dma, cmd, a, n, bytes⟩ s k = .next s.dmaDone := by
  rw [dmaTransfer, if_neg (Bool.eq_false_iff.1 hmeet), transport_dma hn hmeet,
    mainMemoryAccess_dma_outside bytes hn cmd hout]

/-- A Read of main memory goes on with its bytes (R131). -/
theorem dmaTransfer_read {s : State} {a : Word} {n : Nat} {k : List Byte → State → Result} (hn : n ≠ 0)
    (hmeet : meetsDevice s.cfg a n = false) (hin : inMainMemory s.cfg a n = true) :
    dmaTransfer ⟨.dma, .read, a, n, []⟩ s k = k (s.mem.readBytes s.cfg.xlen a n) s := by
  rw [dmaTransfer, if_neg (Bool.eq_false_iff.1 hmeet), transport_dma hn hmeet, mainMemoryAccess_dma_read [] hn hin]

/-- A Write of main memory goes on with the bytes written (R132). -/
theorem dmaTransfer_write {s : State} {a : Word} {n : Nat} {bytes : List Byte} {k : List Byte → State → Result}
    (hn : n ≠ 0) (hmeet : meetsDevice s.cfg a n = false) (hin : inMainMemory s.cfg a n = true) :
    dmaTransfer ⟨.dma, .write, a, n, bytes⟩ s k =
      k [] { s with mem := s.mem.writeBytes s.cfg.xlen a bytes, dmiInvalidate := true } := by
  rw [dmaTransfer, if_neg (Bool.eq_false_iff.1 hmeet), transport_dma hn hmeet,
    mainMemoryAccess_dma_write bytes hn hin]

theorem dmaStep_length_zero {s : State} (hf : s.dma.inFlight = true) (hb : s.dma.buffer = none)
    (hn : s.dma.xferLen.toNat = 0) : dmaStep s = .next s.dmaDone := by
  have hlen : s.dma.xferLen = 0 := BitVec.eq_of_toNat_eq hn
  rw [dmaStep, if_pos hf, hb]
  exact if_pos hlen

/-- The Read of a transfer (R131). -/
theorem dmaStep_read {s : State} (hf : s.dma.inFlight = true) (hb : s.dma.buffer = none)
    (hn : s.dma.xferLen.toNat ≠ 0) : dmaStep s =
      dmaTransfer ⟨.dma, .read, s.dma.xferSrc.setWidth 64, s.dma.xferLen.toNat, []⟩ s fun bytes s' =>
        .next { s' with dma := { s'.dma with buffer := some bytes } } := by
  have hlen : s.dma.xferLen ≠ 0 := fun h => hn (congrArg BitVec.toNat h)
  rw [dmaStep, if_pos hf, hb]
  exact if_neg hlen

/-- The Write of a transfer (R132). -/
theorem dmaStep_write {s : State} {bytes : List Byte} (hf : s.dma.inFlight = true) (hb : s.dma.buffer = some bytes) :
    dmaStep s = dmaTransfer ⟨.dma, .write, s.dma.xferDst.setWidth 64, s.dma.xferLen.toNat, bytes⟩ s fun _ s' =>
      .next s'.dmaDone := by
  rw [dmaStep, if_pos hf, hb]

/-- Settles O54. -/
theorem dmaEndsOrIsRefused : Obligations.DmaEndsOrIsRefused := by
  intro s hf hrun n done fails
  have hrefused (a : Word) : refuseDma a s = .refused (.dmaToDevice a
      { s with outcome := some (.fatal (.refused (.dmaToDevice a))) }) := by
    rw [refuseDma, State.withOutcome_of_running hrun]
  refine ⟨dmaStep_length_zero hf, fun hb hn => ?_, fun bytes hb hn => ?_⟩
  · exact ⟨fun hmeet hout => (dmaStep_read hf hb hn).trans (dmaTransfer_aborted hn hmeet hout),
      fun hmeet => (dmaStep_read hf hb hn).trans ((dmaTransfer_refused hmeet).trans (hrefused _))⟩
  · exact ⟨fun hmeet hout => (dmaStep_write hf hb).trans (dmaTransfer_aborted hn hmeet hout),
      fun hmeet => (dmaStep_write hf hb).trans ((dmaTransfer_refused hmeet).trans (hrefused _))⟩

/-- Settles O53. -/
theorem dmaCopiesTheWholeSource : Obligations.DmaCopiesTheWholeSource := by
  intro s hw hf hb src dst n hn hsize hmeetSrc hmeetDst hinSrc hinDst
  let bytes := s.mem.readBytes s.cfg.xlen src n
  let t := { s with dma := { s.dma with buffer := some bytes } }
  let u := { t with mem := s.mem.writeBytes s.cfg.xlen dst bytes, dmiInvalidate := true }
  have hread : dmaStep s = .next t := (dmaStep_read hf hb hn).trans (dmaTransfer_read hn hmeetSrc hinSrc)
  have hwrite : dmaStep t = .next u.dmaDone :=
    (dmaStep_write (s := t) hf rfl).trans (dmaTransfer_write (s := t) hn hmeetDst hinDst)
  have hlen : bytes.length = n := Memory.length_readBytes ..
  have hfit : bytes.length ≤ 2 ^ s.cfg.xlen.bits := by
    have hle : memOffset s.cfg src + n ≤ s.cfg.memSize := of_decide_eq_true hinSrc
    omega
  refine ⟨t, u.dmaDone, hread, rfl, hf, hwrite, fun i hi => ?_, fun b hb => ?_, rfl, ?_, rfl, rfl, rfl⟩
  · refine (Memory.byte_writeBytes_at _ hw dst bytes i (by omega) hfit).trans ?_
    simp [bytes, Memory.readBytes]
  · exact Memory.byte_writeBytes_other _ hw dst bytes b fun i hi => (hb i (by omega)).symm
  · simp [State.dmaDone]

end Sys2Proof.Machine
end

section
/-! PROOFS. Reset, the boundary, the poll and the pipelines' stages (R70, R421 to R429, R481 to R524). -/

namespace Sys2Proof.Machine

/-! ### Fixed words, and the reset state -/

/-- Settles O2. -/
theorem wordsFromTheSpecDecode : Obligations.WordsFromTheSpecDecode :=
  ⟨rfl, rfl, rfl, rfl, rfl, rfl, rfl, rfl, rfl, rfl, rfl, rfl, rfl, rfl, rfl, rfl⟩

theorem State.x_reset (r : Reg) : State.reset.x r = 0 := by
  rw [x]
  split
  · rfl
  · exact Vector.getElem_replicate ..

/-- Settles O10. -/
theorem resetMeetsTheInvariant : Obligations.ResetMeetsTheInvariant where
  canonical := ⟨rfl, rfl⟩
  even := ⟨rfl, rfl, rfl, rfl, ⟨rfl, rfl, rfl, rfl⟩, ⟨rfl, rfl, rfl, rfl⟩, nofun⟩
  ops := ⟨nofun, nofun, nofun, nofun⟩
  fits := by
    refine ⟨fun r => ?_, fun a => ?_, ⟨?_, ?_, ?_, ?_, ⟨?_, ?_, ?_, ?_⟩, ⟨?_, ?_, ?_, ?_⟩, nofun⟩⟩
    · rw [State.x_reset]; decide
    · rw [show State.reset.csr.get a = 0 from CsrFile.get_reset a]; decide
    all_goals decide
  dma := ⟨rfl, nofun⟩
  idle := fun _ => rfl

/-! ### One step: the boundary, then a cycle (R8, R481) -/

theorem andThen_of_running {s : State} (h : s.outcome = none) (k : State → Result) :
    Result.andThen (.next s) k = k s := if_neg (by simp [h])

theorem andThen_of_ended {s : State} (h : s.outcome.isSome = true) (k : State → Result) :
    Result.andThen (.next s) k = .next s := if_pos h

theorem step_of_boundary {s b : State} (hs : s.outcome = none) (hb : boundary s = .next b) (hrun : b.outcome = none) :
    step s = cycle b := by rw [step, hs, hb, andThen_of_running hrun]

theorem deassert_eq (s : State) : s.deassert = { s with csr := s.deassert.csr, irq := s.deassert.irq } := by
  unfold State.deassert
  split <;> rfl

/-- The poll changes nothing but the trap state, the latches and the flush count. -/
theorem sameButTrap_deassert (s : State) : SameButTrap s s.deassert := by
  rw [deassert_eq]
  exact ⟨rfl, rfl, rfl, rfl, ⟨rfl, rfl⟩, ⟨rfl, rfl, rfl, rfl⟩, ⟨rfl, rfl⟩, rfl, rfl, rfl, rfl⟩

theorem redirectPipeline_eq (target : Word) (s : State) : s.redirectPipeline target = { s with
    two := (s.redirectPipeline target).two, six := (s.redirectPipeline target).six,
    irq := (s.redirectPipeline target).irq } := by
  unfold State.redirectPipeline
  split <;> rfl

theorem sameButTrap_enterInterrupt (s : State) : SameButTrap s (enterInterrupt s) := by
  rw [enterInterrupt, redirectPipeline_eq]
  exact ⟨rfl, rfl, rfl, rfl, ⟨rfl, rfl⟩, ⟨rfl, rfl, rfl, rfl⟩, ⟨rfl, rfl⟩, rfl, rfl, rfl, rfl⟩

theorem sameButTrap_irq (s : State) (irq : IrqState) : SameButTrap s { s with irq := irq } :=
  ⟨rfl, rfl, rfl, rfl, ⟨rfl, rfl⟩, ⟨rfl, rfl, rfl, rfl⟩, ⟨rfl, rfl⟩, rfl, rfl, rfl, rfl⟩

theorem sameButTrap_refl (s : State) : SameButTrap s s := sameButTrap_irq s s.irq

theorem sameButTrap_entryCheck (s : State) : SameButTrap s s.entryCheck := by
  unfold State.entryCheck
  split
  · split
    · exact sameButTrap_enterInterrupt s
    · exact sameButTrap_refl s
  · split
    · split
      · exact sameButTrap_enterInterrupt s
      · exact sameButTrap_irq s _
    · exact sameButTrap_irq s _

theorem SameButTrap.trans {s t u : State} (h : SameButTrap s t) (h' : SameButTrap t u) : SameButTrap s u where
  cfg := h'.cfg.trans h.cfg
  regs := h'.regs.trans h.regs
  reservation := h'.reservation.trans h.reservation
  mem := h'.mem.trans h.mem
  dmi := ⟨h'.dmi.1.trans h.dmi.1, h'.dmi.2.trans h.dmi.2⟩
  devices := by
    obtain ⟨h1, h2, h3, h4⟩ := h.devices
    obtain ⟨h1', h2', h3', h4'⟩ := h'.devices
    exact ⟨h1'.trans h1, h2'.trans h2, h3'.trans h3, h4'.trans h4⟩
  streams := ⟨h'.streams.1.trans h.streams.1, h'.streams.2.trans h.streams.2⟩
  rest := by
    obtain ⟨h1, h2, h3, h4⟩ := h.rest
    obtain ⟨h1', h2', h3', h4'⟩ := h'.rest
    exact ⟨h1'.trans h1, h2'.trans h2, h3'.trans h3, h4'.trans h4⟩

/-- What the poll keeps in every case. -/
theorem sameButTrap_poll (s : State) : SameButTrap s (poll s) :=
  (sameButTrap_deassert s).trans (sameButTrap_entryCheck _)

/-- A cycle with no latency to bill does the stage work. -/
theorem cycle_of_no_latency {b : State} (h : (poll b).irq.stall = 0) :
    cycle b = (stages (poll b)).andThen fun s => .next (countCycle s) := by
  rw [cycle, cycleWork, if_neg (by omega)]

theorem stages_two {s : State} (h : s.cfg.pipe = .twoStage) :
    stages s = (twoEx (twoAdvance s)).andThen (twoIf s.mem) := by rw [stages, h, twoStages]

theorem stages_six {s : State} (h : s.cfg.pipe = .sixStage) :
    stages s = ((commit s).andThen sixEx).andThen sixFrontEnd := by rw [stages, h, sixStages]

theorem executeWord_ok {s : State} {w : BitVec 32} {i : Instr} (h : decode s.cfg.xlen w = .ok i) :
    executeWord w s = exec i s := by rw [executeWord, h]

theorem executeWord_error {s : State} {w : BitVec 32} {e : Reject} (h : decode s.cfg.xlen w = .error e) :
    executeWord w s = .next s := by rw [executeWord, h]

/-- EX of a valid latch runs its word. -/
theorem twoEx_of_next {s t : State} (hvalid : s.two.latch.valid = true)
    (h : executeWord s.two.latch.word s = .next t) : twoEx s = twoAfterExecute t := by
  rw [twoEx, if_pos hvalid, h]

/-- Settles O5. -/
theorem twoStageStepRunsTheDecodedInstruction : Obligations.TwoStageStepRunsTheDecodedInstruction := by
  intro s b i hpipe hs hb hrun hcfg hstall hvalid hdec
  have hpoll : (poll b).cfg = s.cfg := (sameButTrap_poll b).cfg.trans hcfg
  have hexec : executeWord (twoAdvance (poll b)).two.latch.word (twoAdvance (poll b)) = exec i (twoAdvance (poll b)) :=
    executeWord_ok (by rw [← hdec, ← hpoll]; rfl)
  have hlatch : (twoAdvance (poll b)).two.latch.valid = true := hvalid
  rw [step_of_boundary hs hb hrun, cycle_of_no_latency hstall, stages_two (by rw [hpoll, hpipe]), twoEx,
    if_pos hlatch, hexec]
  cases exec i (twoAdvance (poll b)) <;> rfl

/-- Settles O6. -/
theorem sixStageStepRunsTheIssuedInstruction : Obligations.SixStageStepRunsTheIssuedInstruction := by
  intro s b c i hpipe hs hb hrun hcfg hstall hcommit hc hvalid hop hlong
  have hpoll : (poll b).cfg = s.cfg := (sameButTrap_poll b).cfg.trans hcfg
  rw [step_of_boundary hs hb hrun, cycle_of_no_latency hstall, stages_six (by rw [hpoll, hpipe]), hcommit,
    andThen_of_running hc, sixEx, if_pos hvalid, hop, sixExecute, if_neg (by simp [hlong])]

/-- Settles O7. -/
theorem unknownWordsExecuteAsNops : Obligations.UnknownWordsExecuteAsNops := by
  refine ⟨fun s e hvalid hdec hex => ?_, fun s hvalid hop hex hrun => ?_, fun xl w pc e hdec => ?_⟩
  · have hafter : twoAfterExecute s = .next s.countRetired := by
      simp only [twoAfterExecute, hex, ExecResult.none]
      rw [show (⟨none, false, none⟩ : ExecResult) = s.ex from hex.symm]
      rfl
    rw [twoEx_of_next hvalid (executeWord_error hdec), hafter]
  · have hredirect : ¬s.redirecting = true := by simp [State.redirecting, hex, ExecResult.none]
    rw [sixEx, if_pos hvalid, hop, sixExecute, andThen_of_running hrun, sixAfterExecute, if_neg hredirect]
  · rw [decodeRecord, hdec]
    cases e <;> exact ⟨rfl, rfl, rfl⟩

/-- Settles O8. -/
theorem stepsWithoutStageWork : Obligations.StepsWithoutStageWork := by
  refine ⟨fun s o h => ?_, fun s es rest hs hsched => ?_, fun s b hs hb hrun hstall => ?_⟩
  · rw [step, h]
  · have hboundary : boundary s = .next { s with outcome := some .hostStopped, schedule := rest } := by
      rw [boundary, State.events, hsched, agentEvents, agentEvent, andThen_of_ended rfl, andThen_of_ended rfl,
        State.withOutcome_of_running (by exact hs)]
      rfl
    rw [step, hs, hboundary, andThen_of_ended rfl]
  · have hend : (billLatency (poll b)).outcome = none := (sameButTrap_poll b).rest.2.1.trans hrun
    rw [step_of_boundary hs hb hrun, cycle, cycleWork, if_pos hstall, andThen_of_running hend]
    rfl

/-! ### The poll (R421 to R429) -/

theorem irqLine_iff (s : State) : s.irqLine = true ↔ s.timer.mtimecmp.toNat ≤ s.timer.mtime.toNat := decide_eq_true_iff

/-- A bit test by a mask of one bit. -/
theorem and_twoPow_bne (v : Word) (i : Nat) (hi : BitVec.twoPow 64 i ≠ 0) :
    (v &&& BitVec.twoPow 64 i != 0) = v.getLsbD i := by
  rw [BitVec.and_twoPow]
  cases v.getLsbD i with
  | true => exact bne_iff_ne.2 hi
  | false => rfl

theorem mie_eq (s : State) : s.mie = s.csr.mstatus.getLsbD 3 := and_twoPow_bne _ 3 (by decide)
theorem mtie_eq (s : State) : s.mtie = s.csr.mie.getLsbD 7 := and_twoPow_bne _ 7 (by decide)
theorem meip_eq (s : State) : s.meip = s.csr.mip.getLsbD 11 := and_twoPow_bne _ 11 (by decide)

theorem deassert_of_high {s : State} (h : s.irqLine = true) : s.deassert = s := by
  simp [State.deassert, h]

theorem deassert_of_low {s : State} (h : s.irqLine = false) : s.deassert = if s.irq.entered then
    { s with csr := { s.csr with mip := s.csr.mip &&& ~~~meipBit }, irq := { s.irq with entered := false } } else s := by
  simp [State.deassert, h]

theorem irqCauseValue_eq {cfg : Config} (h : cfg.xlen.Fits cfg.irqCause) :
    irqCauseValue cfg = BitVec.ofNat 64 (2 ^ (cfg.xlen.bits - 1)) ||| cfg.irqCause := by
  have htop : ((1 <<< (cfg.xlen.bits - 1) : Nat) : Word) = BitVec.ofNat 64 (2 ^ (cfg.xlen.bits - 1)) := by
    cases cfg.xlen <;> rfl
  have hfits : cfg.xlen.Fits (BitVec.ofNat 64 (2 ^ (cfg.xlen.bits - 1))) := by cases cfg.xlen <;> decide
  rw [irqCauseValue, htop, wrap_of_fits]
  rw [XLen.Fits, BitVec.toNat_or]
  exact Nat.or_lt_two_pow hfits h

section
variable {s : State}

theorem entryCheck_two (hp : s.cfg.pipe = .twoStage) :
    s.entryCheck = if s.entryCondition then enterInterrupt s else s := by rw [State.entryCheck, hp]

theorem entryCheck_six (hp : s.cfg.pipe = .sixStage) : s.entryCheck =
    if s.entryCondition then if s.drained then enterInterrupt s else { s with irq := { s.irq with drain := true } }
    else { s with irq := { s.irq with drain := false } } := by rw [State.entryCheck, hp]

/-- No entry: only the drain flag of the 6-stage pipeline is cleared. -/
theorem entryCheck_of_not_entry (h : s.entryCondition = false) :
    s.entryCheck = { s with irq := { s.irq with drain := decide (s.cfg.pipe = .twoStage) && s.irq.drain } } := by
  cases hp : s.cfg.pipe with
  | twoStage => simp [entryCheck_two hp, h]
  | sixStage => simp [entryCheck_six hp, h]

theorem drained_iff : s.drained = true ↔ s.six.count = 0 ∧ s.six.reg.l4.valid = false := by
  simp [State.drained]

end

/-- Settles O55. -/
theorem pollEntersTheInterrupt : Obligations.PollEntersTheInterrupt := by
  intro s hline hmie hmeip hgate hcause t saved
  have hhigh := (irqLine_iff s).2 hline
  have hentry : s.entryCondition = true := by
    simp only [State.entryCondition, hhigh, mie_eq, hmie, meip_eq, hmeip, mtie_eq]
    cases hg : s.cfg.irqGateMie with
    | false => rfl
    | true => rw [hgate hg]; rfl
  have ht : t = s.entryCheck := by rw [show t = s.deassert.entryCheck from rfl, deassert_of_high hhigh]
  refine ⟨fun hp => ⟨sameButTrap_poll s, ?_⟩, fun hp hcount hl4 => ⟨sameButTrap_poll s, ?_⟩, fun hp hbusy => ?_⟩
  · have hdone : t = enterInterrupt s := by rw [ht, entryCheck_two hp, if_pos hentry]
    simp [hdone, enterInterrupt, State.redirectPipeline, hp, State.precisePc, saved, irqCauseValue_eq hcause, meipBit,
      clearBits10]
  · have hdone : t = enterInterrupt s := by
      rw [ht, entryCheck_six hp, if_pos hentry, if_pos (drained_iff.2 ⟨hcount, hl4⟩)]
    simp [hdone, enterInterrupt, State.redirectPipeline, hp, State.precisePc, saved, irqCauseValue_eq hcause, meipBit,
      clearBits10]
  · have hnot : ¬s.drained = true := by
      rw [drained_iff]
      rintro ⟨hcount, hl4⟩
      rcases hbusy with h | h
      · exact h hcount
      · exact Bool.false_ne_true (hl4.symm.trans h)
    rw [ht, entryCheck_six hp, if_pos hentry, if_neg hnot]

/-- Settles O56. -/
theorem pollDoesNotEnterWhenMasked : Obligations.PollDoesNotEnterWhenMasked := by
  refine fun s => ⟨fun hline hmasked => ?_, fun hline => ⟨sameButTrap_poll s, ?_⟩⟩
  · have hentry : s.entryCondition = false := by
      simp only [State.entryCondition, mie_eq, meip_eq, mtie_eq]
      rcases hmasked with h | h | ⟨h, h'⟩
      · simp only [h, Bool.and_false, Bool.false_and]
      · simp only [h, Bool.not_true, Bool.and_false, Bool.false_and]
      · simp only [h, h', Bool.not_true, Bool.or_false, Bool.and_false]
    rw [poll, deassert_of_high ((irqLine_iff s).2 hline), entryCheck_of_not_entry hentry]
  · have hlow : s.irqLine = false := by
      rw [← Bool.not_eq_true, irqLine_iff]
      omega
    have hentry : s.deassert.entryCondition = false := by
      have hline' : s.deassert.irqLine = false := by rw [deassert_eq]; exact hlow
      simp [State.entryCondition, hline']
    rw [poll, entryCheck_of_not_entry hentry, deassert_of_low hlow]
    cases h : s.irq.entered <;> simp [h, meipBit]

/-! ### Commit (R501, R515, R520) -/

section
variable {s : State}

/-- A ready head with a stop raises it. -/
theorem commit_stop {o : RunOutcome} (hcount : s.six.count > 0) (hready : (s.robAt s.six.head).ready = true)
    (hstop : (s.robAt s.six.head).exception = some o) : commit s = .next ((retireHead s).withOutcome o) := by
  simp [commit, hcount, hready, hstop]

/-- A ready head that raises no stop performs its Write, where it has one, and then writes its destination register. -/
theorem commit_ready (hcount : s.six.count > 0) (hready : (s.robAt s.six.head).ready = true)
    (hstop : (s.robAt s.six.head).exception = none) :
    commit s = (if (s.robAt s.six.head).isStore then commitStore s else .ok 0 s).andThen fun _ s' =>
      .next (retireHead (commitRegister (s.robAt s.six.head) s')) := by
  simp [commit, hcount, hready, hstop]

theorem commit_plain (hcount : s.six.count > 0) (hready : (s.robAt s.six.head).ready = true)
    (hstop : (s.robAt s.six.head).exception = none) (hstore : (s.robAt s.six.head).isStore = false) :
    commit s = .next (retireHead (commitRegister (s.robAt s.six.head) s)) := by
  rw [commit_ready hcount hready hstop, if_neg (Bool.eq_false_iff.1 hstore), Access.andThen]

theorem commit_store {t : State} {v : Word} (hcount : s.six.count > 0) (hready : (s.robAt s.six.head).ready = true)
    (hstop : (s.robAt s.six.head).exception = none) (hstore : (s.robAt s.six.head).isStore = true)
    (h : commitStore s = .ok v t) : commit s = .next (retireHead (commitRegister (s.robAt s.six.head) t)) := by
  rw [commit_ready hcount hready hstop, if_pos hstore, h, Access.andThen]

/-- No ready head: nothing is committed. -/
theorem commit_idle (h : (decide (s.six.count > 0) && (s.robAt s.six.head).ready) = false) : commit s = .next s := by
  rw [commit, if_neg (Bool.eq_false_iff.1 h)]

theorem robAt_setRob {e : RobEntry} {i : Nat} (j : Nat) :
    (s.setRob i e).robAt j = if j = i ∧ i < s.six.rob.length then e else s.robAt j := by
  by_cases hj : j = i
  · by_cases hi : i < s.six.rob.length <;> simp [State.robAt, State.setRob, hj, hi]
  · simp [State.robAt, State.setRob, hj, Ne.symm hj]

end

/-- A stop at EX of the 2-stage pipeline (R494). -/
theorem twoAfterExecute_stop {s : State} {o : RunOutcome} (h : s.ex.stop = some o) :
    twoAfterExecute s = .next ({ s.countRetired with ex := .none }.withOutcome o) := by
  simp only [twoAfterExecute, h]

/-- A taken transfer at EX of the 2-stage pipeline (R486). -/
theorem twoAfterExecute_jump {s : State} {target : Word} (h : s.ex.stop = none) (ht : s.ex.target = some target) :
    twoAfterExecute s = .next { s.countRetired.countRedirect with
      ex := .none, two := { s.two with pc := target, flush := true } } := by
  simp only [twoAfterExecute, h, ht]
  rfl

/-- Falling through at EX of the 2-stage pipeline. -/
theorem twoAfterExecute_fall {s : State} (h : s.ex.stop = none) (ht : s.ex.target = none) :
    twoAfterExecute s = .next { s.countRetired with ex := .none } := by
  simp only [twoAfterExecute, h, ht]

theorem withOutcome_outcome_of_running {s : State} (h : s.outcome = none) (o : RunOutcome) :
    (s.withOutcome o).outcome = some o := by rw [State.withOutcome_outcome, h]; rfl

theorem sixAfterExecute_frame (s : State) :
    ∃ stats, sixAfterExecute s = .next { completeRob s with stats := stats } := by
  rw [sixAfterExecute]
  split
  · exact ⟨_, rfl⟩
  · exact ⟨_, rfl⟩

theorem robAt_completeRob {s : State} (hx : s.six.reg.l4.robIndex < s.six.rob.length) :
    (completeRob s).robAt s.six.reg.l4.robIndex =
      { s.robAt s.six.reg.l4.robIndex with ready := true, exception := s.ex.stop } := by
  rw [completeRob, robAt_setRob, if_pos ⟨rfl, hx⟩]

/-- Settles O36. -/
theorem stopsAreRaisedAtRetirement : Obligations.StopsAreRaisedAtRetirement := by
  refine ⟨fun s o hstop hrun => ?_, fun s o hstop hx hp => ?_, fun s o hcount hready hstop hrun => ?_⟩
  · exact ⟨_, twoAfterExecute_stop hstop, withOutcome_outcome_of_running hrun o, rfl, rfl, rfl, rfl⟩
  · obtain ⟨stats, hnext⟩ := sixAfterExecute_frame s
    have hrob := robAt_completeRob (hx hp)
    exact ⟨_, hnext, rfl, (congrArg RobEntry.exception hrob).trans hstop, congrArg RobEntry.ready hrob⟩
  · have hrun' : (retireHead s).outcome = none := hrun
    exact ⟨_, commit_stop hcount hready hstop, withOutcome_outcome_of_running hrun' o, rfl, rfl, rfl, rfl⟩

/-! ### Retiring an entry (R501, R512, R515) -/

theorem robAt_retireHead (s : State) (j : Nat) : (retireHead s).robAt j =
    if j = s.six.head ∧ s.six.head < s.six.rob.length then { s.robAt s.six.head with valid := false } else s.robAt j :=
  robAt_setRob (s := s) (e := { s.robAt s.six.head with valid := false }) j

theorem robAt_of_length_le {s : State} {j : Nat} (h : s.six.rob.length ≤ j) : s.robAt j = RobEntry.empty :=
  List.getD_eq_default _ _ h

theorem valid_robAt_retireHead_head (s : State) : ((retireHead s).robAt s.six.head).valid = false := by
  rw [robAt_retireHead]
  by_cases h : s.six.head < s.six.rob.length
  · rw [if_pos ⟨rfl, h⟩]
  · rw [if_neg fun hj => h hj.2, robAt_of_length_le (by omega)]
    rfl

theorem robAt_retireHead_of_ne {s : State} {j : Nat} (h : j ≠ s.six.head) : (retireHead s).robAt j = s.robAt j := by
  rw [robAt_retireHead, if_neg fun hj => h hj.1]

/-- What retiring the entry `e` at the head does: its destination register is written and it leaves the ROB. -/
structure Retired (e : RobEntry) (s t : State) : Prop where
  regs : ∀ r, t.x r = if r = e.destReg ∧ r ≠ 0 then s.cfg.xlen.wrap e.result else s.x r
  count : t.six.count = s.six.count - 1
  head : t.six.head = (s.six.head + 1) % s.cfg.robN
  tail : t.six.tail = s.six.tail
  left : (t.robAt s.six.head).valid = false
  others : ∀ j, j ≠ s.six.head → t.robAt j = s.robAt j
  retired : t.stats.retired = s.stats.retired + 1
  mem : t.mem = s.mem
  csr : t.csr = s.csr
  reservation : t.reservation = s.reservation
  sb : t.six.sb = s.six.sb
  outcome : t.outcome = s.outcome

theorem retired_commitRegister (e : RobEntry) (s : State) : Retired e s (retireHead (commitRegister e s)) := by
  have hsix : (commitRegister e s).six = s.six := State.setX_six ..
  have hleft := valid_robAt_retireHead_head (commitRegister e s)
  rw [hsix] at hleft
  refine ⟨State.x_setX s e.destReg e.result, ?_, ?_, ?_, hleft, fun j hj => ?_, ?_, ?_, ?_, ?_, ?_, ?_⟩
  · exact congrArg (·.count - 1) hsix
  · simp [retireHead, commitRegister]
  · exact (show _ = (commitRegister e s).six.tail from rfl).trans (congrArg SixStage.tail hsix)
  · rw [robAt_retireHead_of_ne (by rwa [hsix]), State.robAt, hsix, State.robAt]
  all_goals simp [retireHead, commitRegister, State.setRob, State.countRetired]

/-- The Write of a store that commits (R512). -/
theorem commitStore_ok {s t : State} {e : SbEntry} {rest : List SbEntry} {v : Word} (hsb : s.six.sb = e :: rest)
    (h : memWrite e.address e.size e.data { s with six := { s.six with sb := rest } } = .ok v t) :
    commitStore s = .ok v t := by
  simp only [commitStore, hsb, h]

/-- Settles O27. -/
theorem commitRetiresTheHead : Obligations.CommitRetiresTheHead := by
  refine ⟨fun s e rest hcount hready hstop hstore hsb hsize hm ht hw => ?_,
    fun s hcount hready hstop hstore => ⟨_, commit_plain hcount hready hstop hstore, ?_⟩⟩
  · have hwrite := commitStore_ok hsb (memWrite_main (s := { s with six := { s.six with sb := rest } }) e.data hsize hm ht)
    have hlen : (leBytes e.size e.data).length = e.size := length_leBytes ..
    have h := retired_commitRegister (s.robAt s.six.head)
      { s with six := { s.six with sb := rest }, dmiInvalidate := true,
               mem := s.mem.writeBytes s.cfg.xlen e.address (leBytes e.size e.data) }
    refine ⟨_, commit_store hcount hready hstop hstore hwrite, fun i hi => ?_, fun b hb => ?_, h.sb, h.count, h.head,
      h.regs, h.left, h.others, h.retired, h.csr, h.outcome, h.reservation⟩
    · rw [h.mem]
      exact byte_writeBytes_leBytes _ hw _ _ (le_eight_of_mem_sizes hsize) hi
    · rw [h.mem]
      exact Memory.byte_writeBytes_other _ hw _ _ _ fun i hi => (hb i (hlen ▸ hi)).symm
  · have h := retired_commitRegister (s.robAt s.six.head) s
    exact ⟨h.regs, h.count, h.head, h.tail, h.left, h.others, h.retired, h.mem, h.csr, h.reservation, h.sb, h.outcome⟩

/-- Settles O41. -/
theorem sixStageRefusesCompressedCode : Obligations.SixStageRefusesCompressedCode := by
  intro s i hvalid hop hcomp hrun
  rw [sixEx, if_pos hvalid, hop, sixExecute, if_pos hcomp, refuseCompressed, State.withOutcome_of_running hrun]
  rfl

/-! ### IS (R503, R516) -/

/-- IS writes the ROB, the L4 latch and the count of its stalls, and nothing else. -/
theorem sixIs_frame (s : State) : ∃ rob tail count l4 stats, (sixIs s).1 = { s with
    six := { s.six with rob := rob, tail := tail, count := count, next := { s.six.next with l4 := l4 } }
    stats := { s.stats with issueStalls := stats } } := by
  unfold sixIs
  (repeat' split) <;> exact ⟨_, _, _, _, _, rfl⟩

section
variable {s : State}

theorem sixIs_squash (h : (s.redirecting || s.squashing) = true) : sixIs s = (issueBubble s, false) := if_pos h

theorem sixIs_stall (h : (s.redirecting || s.squashing) = false) (hvalid : s.six.reg.l3.valid = true)
    (hstall : s.mustStall = true) : sixIs s =
      ({ issueBubble s with stats := { s.stats with issueStalls := s.stats.issueStalls + 1 } }, true) := by
  rw [sixIs, if_neg (Bool.eq_false_iff.1 h), if_neg (by rw [hvalid]; decide), if_pos hstall]

theorem sixIs_issue (h : (s.redirecting || s.squashing) = false) (hvalid : s.six.reg.l3.valid = true)
    (hstall : s.mustStall = false) : sixIs s = (issue s, false) := by
  rw [sixIs, if_neg (Bool.eq_false_iff.1 h), if_neg (by rw [hvalid]; decide), if_neg (Bool.eq_false_iff.1 hstall)]

theorem sixIs_stalled (h : (sixIs s).2 = true) : (sixIs s).1.six.next.l4 = .bubble := by
  unfold sixIs at h ⊢
  split
  · rfl
  · split
    · rfl
    · split
      · rfl
      · simp_all

theorem not_squash_of_idle (h : s.ex = ExecResult.none) : (s.redirecting || s.squashing) = false := by
  rw [State.redirecting, State.squashing, h]
  rfl

/-- The scoreboard (R516). -/
theorem busy_iff {r : Reg} : s.busy r = true ↔
    r ≠ 0 ∧ ∃ j, j < s.six.rob.length ∧ (s.robAt j).valid = true ∧ (s.robAt j).destReg = r := by
  rw [State.busy, Bool.and_eq_true, bne_iff_ne, List.any_eq_true]
  refine and_congr_right fun _ => ⟨fun ⟨e, he, hr⟩ => ?_, fun ⟨j, hj, hr⟩ => ?_⟩
  · obtain ⟨j, hj, rfl⟩ := List.getElem_of_mem he
    refine ⟨j, hj, ?_⟩
    rw [State.robAt, List.getD_eq_getElem _ _ hj]
    simpa using hr
  · rw [State.robAt, List.getD_eq_getElem _ _ hj] at hr
    exact ⟨_, List.getElem_mem hj, by simpa using hr⟩

theorem mustStall_iff : s.mustStall = true ↔ s.irq.drain = true ∨ s.busy s.six.reg.l3.record.rs1 = true ∨
    s.busy s.six.reg.l3.record.rs2 = true ∨ s.six.count = s.cfg.robN := by
  simp [State.mustStall, or_assoc]

end

/-- Settles O57. -/
theorem issueWaitsForItsOperands : Obligations.IssueWaitsForItsOperands := by
  intro s hex hvalid htail r inFlight t
  have hidle := not_squash_of_idle hex
  have hstall : s.mustStall = true ↔
      s.irq.drain = true ∨ inFlight r.rs1 ∨ inFlight r.rs2 ∨ s.six.count = s.cfg.robN := by
    rw [mustStall_iff, busy_iff, busy_iff]
  cases h : s.mustStall with
  | true =>
    have ht := sixIs_stall hidle hvalid h
    rw [if_pos (hstall.1 h)]
    refine ⟨congrArg Prod.snd ht, ?_⟩
    rw [show t = _ from congrArg Prod.fst ht]
    exact ⟨rfl, rfl, rfl, rfl⟩
  | false =>
    have ht := sixIs_issue hidle hvalid h
    rw [if_neg fun hc => Bool.false_ne_true (h.symm.trans (hstall.2 hc))]
    refine ⟨congrArg Prod.snd ht, ?_⟩
    rw [show t = _ from congrArg Prod.fst ht]
    refine ⟨rfl, ?_, fun j hj => ?_, rfl, rfl, rfl⟩
    · exact (robAt_setRob (s := s) _).trans (if_pos ⟨rfl, htail⟩)
    · exact (robAt_setRob (s := s) _).trans (if_neg fun hc => hj hc.1)

/-! ### Fetches in the pipelines (R486, R506) -/

/-- The word of main memory at an address (R106). -/
def memWord (s : State) (pc : Word) : BitVec 32 := (leValue (s.mem.readBytes s.cfg.xlen pc 4)).setWidth 32

/-- Everything a fetch can do. -/
theorem fetch_eq (pc : Word) (s : State) : fetch pc s =
    if isDeviceAddr s.cfg pc then .stopped (refuseFetch pc s)
    else if s.dmi.any (·.covers pc) then .ok (memWord s pc) s
    else if inMainMemory s.cfg pc 4 then .ok (memWord s pc) s.requestDmi
    else .stopped (raiseFetchError pc s) := by
  cases hdev : isDeviceAddr s.cfg pc with
  | true => simp [fetch, hdev]
  | false =>
    have ha : targetAt pc = none := by simpa using (Bool.or_eq_false_iff.1 hdev).1
    cases hin : inMainMemory s.cfg pc 4 <;>
      simp [fetch, hdev, transport_main (s := s) (tx := ⟨.instruction, .read, pc, 4, []⟩) ha (.inl rfl),
        mainMemoryAccess, burstOk, hin, memWord]

theorem requestDmi_eq (s : State) : s.requestDmi = { s with dmi := s.requestDmi.dmi } := by
  unfold State.requestDmi
  split <;> rfl

theorem requestDmi_dmi_congr {s t : State} (hcfg : t.cfg = s.cfg) (hd : t.dmi = s.dmi) :
    t.requestDmi.dmi = s.requestDmi.dmi := by
  unfold State.requestDmi
  rw [hcfg]
  split
  · rfl
  · exact hd

/-- A fetch that answers a word changes at most the descriptor, and answers the same in every state with the same parameters,
descriptor and memory. -/
theorem fetch_ok {pc : Word} {s u : State} {w : BitVec 32} (h : fetch pc s = .ok w u) : ∃ d, u = { s with dmi := d } ∧
    ∀ t : State, t.cfg = s.cfg → t.dmi = s.dmi → t.mem = s.mem → fetch pc t = .ok w { t with dmi := d } := by
  cases hdev : isDeviceAddr s.cfg pc with
  | true =>
    rw [fetch_eq, if_pos hdev] at h
    cases h
  | false =>
    have hdev' : ¬isDeviceAddr s.cfg pc = true := Bool.eq_false_iff.1 hdev
    have hword : ∀ t : State, t.cfg = s.cfg → t.mem = s.mem → memWord t pc = memWord s pc := fun t hcfg hm => by
      rw [memWord, memWord, hcfg, hm]
    rw [fetch_eq, if_neg hdev'] at h
    split at h
    · next hdmi =>
      cases h
      refine ⟨s.dmi, rfl, fun t hcfg hd hm => ?_⟩
      rw [fetch_eq, if_neg (by rwa [hcfg]), if_pos (by rwa [hd]), hword t hcfg hm, ← hd]
    · next hdmi =>
      split at h
      · next hin =>
        cases h
        refine ⟨_, requestDmi_eq s, fun t hcfg hd hm => ?_⟩
        rw [fetch_eq, if_neg (by rwa [hcfg]), if_neg (by rwa [hd]), if_pos (by rwa [hcfg]), hword t hcfg hm,
          requestDmi_eq t, requestDmi_dmi_congr hcfg hd]
      · cases h

/-! ### Redirects, stalls and the advance of the front end (R486 to R490, R503 to R508) -/

theorem twoIf_flush {s : State} (before : Memory) (h : s.two.flush = true) :
    twoIf before s = .next { s with two := { s.two with latchNext := .bubble, flush := false } } := if_pos h

theorem twoIf_dma {s : State} (before : Memory) (hflush : s.two.flush = false) (h : s.dma.inFlight = true) :
    twoIf before s = .next { s.countStall with two := { s.two with latchNext := .bubble } } := by
  rw [twoIf, if_neg (Bool.eq_false_iff.1 hflush), if_pos h]

theorem twoIf_fetch {s u : State} {w : BitVec 32} (before : Memory) (hflush : s.two.flush = false)
    (hdma : s.dma.inFlight = false) (h : fetch s.two.pc s = .ok w u) :
    twoIf before s = .next (twoLatchFetched (wordSeen before w u) u) := by
  rw [twoIf, if_neg (Bool.eq_false_iff.1 hflush), if_neg (Bool.eq_false_iff.1 hdma), h]

/-- The address after a fetched word (R35, R36). -/
theorem addOffset_instrLength (xl : XLen) (pc : Word) (w : BitVec 32) :
    addOffset xl pc (instrLength w) = ofIntX xl (pc.toNat + if isCompressedWord w then 2 else 4) := by
  unfold instrLength
  split
  · rw [← ofIntX_two xl, addOffset_ofIntX]
  · rw [← ofIntX_four xl, addOffset_ofIntX]

section
variable {s : State} (stall : Bool)

theorem sixId_squash (h : (s.redirecting || s.squashing) = true) :
    sixId stall s = s.withNext { s.six.next with l3 := .bubble } := by simp only [sixId, h, if_true]

theorem sixId_stall (h : (s.redirecting || s.squashing) = false) :
    sixId true s = s.withNext { s.six.next with l3 := s.six.reg.l3 } := by simp [sixId, h]

theorem sixId_advance (h : (s.redirecting || s.squashing) = false) : sixId false s = s.withNext { s.six.next with
    l3 := if s.six.reg.l2.valid then ⟨true, decodeRecord s.cfg.xlen s.six.reg.l2.word s.six.reg.l2.pc⟩ else .bubble } := by
  simp [sixId, h]

end

section
variable {s : State} (stall : Bool) (k : Stalls → State → Result)

theorem sixIf_squash (h : (s.redirecting || s.squashing) = true) : sixIf stall s k = k ⟨stall, false⟩ (s.withL2 .bubble) :=
  if_pos h

theorem sixIf_stall (h : (s.redirecting || s.squashing) = false) :
    sixIf true s k = k ⟨true, false⟩ (s.withL2 s.six.reg.l2) := by
  rw [sixIf, if_neg (Bool.eq_false_iff.1 h), if_pos rfl]

theorem sixIf_dma (h : (s.redirecting || s.squashing) = false) (hdma : s.dma.inFlight = true) :
    sixIf false s k = k ⟨false, true⟩ (s.countStall.withL2 .bubble) := by
  rw [sixIf, if_neg (Bool.eq_false_iff.1 h), if_neg (by decide), if_pos hdma]

theorem sixIf_bubble (h : (s.redirecting || s.squashing) = false) (hdma : s.dma.inFlight = false)
    (hvalid : s.six.reg.l1.valid = false) : sixIf false s k = k ⟨false, false⟩ (s.withL2 .bubble) := by
  rw [sixIf, if_neg (Bool.eq_false_iff.1 h), if_neg (by decide), if_neg (Bool.eq_false_iff.1 hdma),
    if_neg (Bool.eq_false_iff.1 hvalid)]

theorem sixIf_fetch {w : BitVec 32} {u : State} (h : (s.redirecting || s.squashing) = false)
    (hdma : s.dma.inFlight = false) (hvalid : s.six.reg.l1.valid = true) (hf : fetch s.six.reg.l1.pc s = .ok w u) :
    sixIf false s k = k ⟨false, false⟩ (u.withL2 ⟨true, u.six.reg.l1.pc, w⟩) := by
  rw [sixIf, if_neg (Bool.eq_false_iff.1 h), if_neg (by decide), if_neg (Bool.eq_false_iff.1 hdma), if_pos hvalid, hf]

end

section
variable {s : State} (stalls : Stalls)

theorem pcGen_target {target : Word} (h : s.ex.target = some target) : pcGen stalls s =
    { s.withL1 .bubble with six := { (s.withL1 .bubble).six with pcgenPc := target } } := by rw [pcGen, h]

theorem pcGen_squash (ht : s.ex.target = none) (h : s.squashing = true) : pcGen stalls s = s.withL1 .bubble := by
  simp only [pcGen, ht, h, if_true]

theorem pcGen_hold (hex : s.ex = ExecResult.none) (h : (stalls.issue || stalls.dma) = true) :
    pcGen stalls s = s.withL1 s.six.reg.l1 := by
  simp [pcGen, State.squashing, hex, ExecResult.none, h]

theorem pcGen_advance (hex : s.ex = ExecResult.none) : pcGen ⟨false, false⟩ s =
    { s.withL1 ⟨true, s.six.pcgenPc⟩ with six := { (s.withL1 ⟨true, s.six.pcgenPc⟩).six with
        pcgenPc := addOffset s.cfg.xlen s.six.pcgenPc 4 } } := by
  simp [pcGen, State.squashing, hex, ExecResult.none]

end

/-- A redirect or a stop at EX empties the front end; nothing is issued, and nothing is fetched (R503 to R508). -/
theorem sixFrontEnd_squash {s : State} (h : (s.redirecting || s.squashing) = true) : sixFrontEnd s = .next { s with
    six := { s.six with reg := .bubbles, next := .bubbles, pcgenPc := s.ex.target.getD s.six.pcgenPc }, ex := .none } := by
  rw [sixFrontEnd, sixIs_squash h, sixId_squash _ (by exact h), sixIf_squash _ _ (by exact h)]
  cases ht : s.ex.target with
  | some target =>
    rw [pcGen_target _ (by exact ht)]
    rfl
  | none =>
    have hstop : s.squashing = true := by simpa [State.redirecting, ht] using h
    rw [pcGen_squash _ (by exact ht) (by exact hstop)]
    rfl

/-- Settles O23. -/
theorem transfersRedirectTheFetch : Obligations.TransfersRedirectTheFetch := by
  refine ⟨fun s t before target htarget hstop hrun hvalid hexec => ?_, fun s h => ?_⟩
  · rw [twoEx_of_next hvalid hexec, twoAfterExecute_jump hstop htarget, andThen_of_running (by exact hrun), twoIf_flush _ rfl]
    exact ⟨_, rfl, rfl, rfl, rfl, rfl, rfl, rfl, rfl, rfl, rfl, rfl⟩
  · exact ⟨_, sixFrontEnd_squash (Bool.or_eq_true_iff.2 h),
      rfl, rfl, rfl, rfl, rfl, rfl, rfl, rfl, rfl, rfl, rfl, rfl, rfl, rfl⟩

/-- The front end with no redirect and no stall of IS, up to IF. -/
theorem sixFrontEnd_advance {s : State} (hex : s.ex = ExecResult.none) (hstall : (sixIs s).2 = false) :
    ∃ rob tail count l4 stats, sixFrontEnd s = sixIf false { s with
      six := { s.six with rob := rob, tail := tail, count := count, next := { s.six.next with
        l3 := if s.six.reg.l2.valid then ⟨true, decodeRecord s.cfg.xlen s.six.reg.l2.word s.six.reg.l2.pc⟩ else .bubble
        l4 := l4 } }
      stats := { s.stats with issueStalls := stats } } fun stalls s' => .next (clockEdge (pcGen stalls s')) := by
  obtain ⟨rob, tail, count, l4, stats, h⟩ := sixIs_frame s
  refine ⟨rob, tail, count, l4, stats, ?_⟩
  rw [sixFrontEnd, hstall, h, sixId_advance (by exact not_squash_of_idle hex)]
  rfl

theorem FrontEndAdvances.of_clockEdge {s : State} {l2 : FetchLatch} {l4 : IssueLatch} (d : Option DmiDescriptor)
    (rob : List RobEntry) (tail count : Nat) (stats : Stats) : FrontEndAdvances s
    (clockEdge { s with dmi := d, stats := stats, six := { s.six with
      rob := rob, tail := tail, count := count, next := {
        l1 := ⟨true, s.six.pcgenPc⟩
        l2 := l2
        l3 := if s.six.reg.l2.valid then ⟨true, decodeRecord s.cfg.xlen s.six.reg.l2.word s.six.reg.l2.pc⟩ else .bubble
        l4 := l4 }
      pcgenPc := addOffset s.cfg.xlen s.six.pcgenPc 4 } }) where
  decoded h := if_pos h
  bubble h := congrArg RecordLatch.valid (if_neg (Bool.eq_false_iff.1 h))
  sent := rfl
  pcgen := by
    rw [← addOffset_ofIntX, ofIntX_four]
    rfl
  regs := rfl
  mem := rfl
  csr := rfl

/-- Settles O24. -/
theorem fetchAdvancesOrStalls : Obligations.FetchAdvancesOrStalls := by
  refine ⟨fun s u before w hflush hdma hf => ?_, fun s hdma => ⟨fun hflush before => ?_, fun hex hstall => ?_⟩,
    fun s hex hdma hstall => ⟨fun w u hvalid hf => ?_, fun hvalid => ?_⟩, fun s hex hstall => ?_⟩
  · obtain ⟨d, rfl, -⟩ := fetch_ok hf
    refine ⟨_, twoIf_fetch before hflush hdma hf, ?_, ?_, rfl, rfl, rfl⟩
    · exact congrArg (FetchLatch.mk true s.two.pc) (wordSeen_eq before w _)
    · rw [← addOffset_instrLength, ← wordSeen_eq]
      rfl
  · exact ⟨_, twoIf_dma before hflush hdma, rfl, rfl, rfl, rfl, rfl, rfl⟩
  · obtain ⟨rob, tail, count, l4, stats, h⟩ := sixFrontEnd_advance hex hstall
    rw [h, sixIf_dma _ (by exact not_squash_of_idle hex) (by exact hdma), pcGen_hold _ (by exact hex) rfl]
    exact ⟨_, rfl, rfl, rfl, rfl, rfl, rfl, rfl⟩
  · obtain ⟨rob, tail, count, l4, stats, h⟩ := sixFrontEnd_advance hex hstall
    obtain ⟨d, rfl, hf'⟩ := fetch_ok hf
    rw [h, sixIf_fetch _ (by exact not_squash_of_idle hex) (by exact hdma) (by exact hvalid) (by exact hf' _ rfl rfl rfl),
      pcGen_advance (by exact hex)]
    exact ⟨_, rfl, rfl, FrontEndAdvances.of_clockEdge ..⟩
  · obtain ⟨rob, tail, count, l4, stats, h⟩ := sixFrontEnd_advance hex hstall
    rw [h, sixIf_bubble _ (by exact not_squash_of_idle hex) (by exact hdma) (by exact hvalid), pcGen_advance (by exact hex)]
    exact ⟨_, rfl, rfl, FrontEndAdvances.of_clockEdge ..⟩
  · obtain ⟨rob, tail, count, l4, stats, h⟩ := sixIs_frame s
    have hl4 : (sixIs s).1.six.next.l4 = .bubble := sixIs_stalled hstall
    have hidle := not_squash_of_idle hex
    rw [sixFrontEnd, hstall]
    rw [h] at hl4 ⊢
    rw [sixId_stall (by exact hidle), sixIf_stall _ (by exact hidle), pcGen_hold _ (by exact hex) rfl]
    exact ⟨_, rfl, rfl, rfl, rfl, congrArg IssueLatch.valid hl4, rfl, rfl, rfl, rfl⟩

/-! ### The word after a store (R123, R124) -/

/-- IF on main memory: the word passed on is the one of this moment or, by the parameter, of `before` (entry 23). -/
theorem twoIf_main {s : State} (before : Memory) (hflush : s.two.flush = false) (hdma : s.dma.inFlight = false)
    (hdev : isDeviceAddr s.cfg s.two.pc = false) (hin : inMainMemory s.cfg s.two.pc 4 = true) :
    ∃ u, twoIf before s = .next u ∧ u.mem = s.mem ∧ u.two.latchNext = ⟨true, s.two.pc, BitVec.ofNat 32
      (if s.cfg.oldWordAfterStore then leNumber (fun i => before.byte (addrAt s.cfg.xlen s.two.pc i)) 4
        else s.memNumber s.two.pc 4)⟩ := by
  obtain ⟨d, hf⟩ := fetch_main hdev hin
  refine ⟨_, twoIf_fetch before hflush hdma hf, rfl, congrArg (FetchLatch.mk true s.two.pc) ((wordSeen_eq ..).trans ?_)⟩
  exact (apply_ite (BitVec.ofNat 32) _ _ _).symm

/-- Settles O60. -/
theorem theWordFetchedBehindAStore : Obligations.TheWordFetchedBehindAStore := by
  intro s t i hvalid hdec hexec hcfg hrun hex hflush hdma hdev hin
  have hw : executeWord (twoAdvance s).two.latch.word (twoAdvance s) = .next t :=
    (executeWord_ok (s := twoAdvance s) hdec).trans hexec
  obtain ⟨u, hu, hmem, hlatch⟩ := twoIf_main (s := { t.countRetired with ex := .none }) s.mem hflush hdma
    ((congrArg (isDeviceAddr · t.two.pc) hcfg).trans hdev) ((congrArg (inMainMemory · t.two.pc 4) hcfg).trans hin)
  rw [twoStages, twoEx_of_next (by exact hvalid) hw, twoAfterExecute_fall (by rw [hex]; rfl) (by rw [hex]; rfl),
    andThen_of_running (by exact hrun)]
  refine ⟨u, hu, hmem, congrArg FetchLatch.valid hlatch, congrArg FetchLatch.pc hlatch,
    (congrArg FetchLatch.word hlatch).trans ?_⟩
  show BitVec.ofNat 32 (if t.cfg.oldWordAfterStore then leNumber (fun i => s.mem.byte (addrAt t.cfg.xlen t.two.pc i)) 4
    else t.memNumber t.two.pc 4) = _
  rw [hcfg]
  rfl

/-! ### The image (R472, R474) -/

theorem loadData_cons {cfg : Config} {m : Memory} {a b : Nat} {bs : List Nat} : loadData cfg m a (b :: bs) =
    if isMainMemory cfg a then loadData cfg (m.setByte a (BitVec.ofNat 8 b)) (a + 1) bs else none := rfl

theorem wf_loadData {cfg : Config} {m m' : Memory} {a : Nat} {bs : List Nat} (hm : m.wf) (h : loadData cfg m a bs = some m') :
    m'.wf := by
  induction bs generalizing m a with
  | nil => exact Option.some.inj h ▸ hm
  | cons b bs ih =>
    rw [loadData_cons] at h
    split at h
    · exact ih (Memory.wf_setByte hm _ _) h
    · cases h

/-- Bytes outside the data keep their value. -/
theorem byte_loadData_other {cfg : Config} {m m' : Memory} {a : Nat} {bs : List Nat} (hm : m.wf)
    (h : loadData cfg m a bs = some m') {j : Nat} (hj : j < a ∨ a + bs.length ≤ j) : m'.byte j = m.byte j := by
  induction bs generalizing m a with
  | nil => exact Option.some.inj h ▸ rfl
  | cons b bs ih =>
    rw [List.length_cons] at hj
    rw [loadData_cons] at h
    split at h
    · rw [ih (Memory.wf_setByte hm _ _) h (by omega), Memory.byte_setByte hm, if_neg (by omega)]
    · cases h

theorem byte_loadData {cfg : Config} {m m' : Memory} {a : Nat} {bs : List Nat} (hm : m.wf)
    (h : loadData cfg m a bs = some m') (i : Nat) (hi : i < bs.length) :
    isMainMemory cfg (a + i) = true ∧ m'.byte (a + i) = BitVec.ofNat 8 bs[i] := by
  induction bs generalizing m a i with
  | nil => cases hi
  | cons b bs ih =>
    rw [loadData_cons] at h
    split at h
    · next hmain =>
      have hm' := Memory.wf_setByte hm a (BitVec.ofNat 8 b)
      cases i with
      | zero =>
        refine ⟨hmain, ?_⟩
        rw [Nat.add_zero, byte_loadData_other hm' h (.inl (by omega)), Memory.byte_setByte hm, if_pos rfl]
        rfl
      | succ i =>
        have hnext := ih hm' h i (Nat.lt_of_succ_lt_succ hi)
        rwa [show a + 1 + i = a + (i + 1) by omega] at hnext
    · cases h

/-- Settles O59. -/
theorem imageBytesArePlacedInMainMemory : Obligations.ImageBytesArePlacedInMainMemory := by
  refine ⟨fun cfg m m' a bs hm h => ⟨wf_loadData hm h, byte_loadData hm h, fun b => byte_loadData_other hm h⟩,
    fun cfg st r h => ?_⟩
  obtain ⟨k, hk⟩ : ∃ k, r.kind = k + 6 := ⟨r.kind - 6, by omega⟩
  rw [applyRecord, hk]
  rfl

end Sys2Proof.Machine
end

section
/-! PROOFS. What an instruction at EX can change, from the few shapes of instruction effects (R19, R56, R64, R180, R300). -/

namespace Sys2Proof.Machine

/-! ### The shapes of instruction effects -/

/-- The shapes of an instruction's effect, one for each operation of Machine/Ops.lean an arm of the executor ends in. -/
inductive Shape where
  | nop
  | result (rd : Reg) (v : Word)
  | branch (cond : Bool) (off : Word)
  | jump (rd : Reg) (len target : Word)
  | load (rd : Reg) (ea : Word) (n : Nat) (ext : Word → Word)
  | store (ea : Word) (n : Nat) (v : Word)
  | loadReserved (rd : Reg) (a : Word) (n : Nat)
  | storeConditional (rd : Reg) (a : Word) (n : Nat) (v : Word)
  | amo (rd : Reg) (a : Word) (n : Nat) (op : (n : Nat) → BitVec n → BitVec n → BitVec n) (src : Word)
  | csr (rd : Reg) (a : CsrAddr) (new : Word → Option Word)
  | ecall
  | ebreak
  | mret

/-- What the shape does. -/
def Shape.run (s : State) : Shape → Result
  | .nop => .next s
  | .result rd v => writeResult rd v s
  | .branch cond off => branchIf cond off s
  | .jump rd len target => jumpLink rd len target s
  | .load rd ea n ext => loadInto rd ea n ext s
  | .store ea n v => storeTo ea n v s
  | .loadReserved rd a n => Machine.loadReserved rd a n s
  | .storeConditional rd a n v => Machine.storeConditional rd a n v s
  | .amo rd a n op src => Machine.amo rd a n op src s
  | .csr rd a new => csrAccess rd a new s
  | .ecall => execEcall s
  | .ebreak => .next s.breakpoint
  | .mret => .next (returnFromTrap s)

/-- The shape has a store to perform (R503). -/
def Shape.stores : Shape → Bool
  | .store .. | .storeConditional .. | .amo .. => true
  | _ => false

/-- The shape sets or clears the reservation (R300). -/
def Shape.reserves : Shape → Bool
  | .loadReserved .. | .storeConditional .. => true
  | _ => false

/-- The shape is a CSR access (R391). -/
def Shape.accessesCsr : Shape → Bool
  | .csr .. => true
  | _ => false

/-- The address a transfer of this shape goes to (R19, R240, R401). -/
def Shape.target (s : State) : Shape → Option Word
  | .branch _ off => some (addOffset s.cfg.xlen s.instrPc off)
  | .jump _ _ target => some target
  | .mret => some (clearBit0 s.csr.mepc)
  | _ => none

/-- The instruction is an LR or an SC. -/
def Instr.IsReservation (i : Instr) : Prop :=
  (∃ aq rl rd rs1, i = .lrW aq rl rd rs1 ∨ i = .lrD aq rl rd rs1) ∨
    (∃ aq rl rd rs1 rs2, i = .scW aq rl rd rs1 rs2 ∨ i = .scD aq rl rd rs1 rs2)

/-- The instruction is a CSR instruction. -/
def Instr.IsCsr (i : Instr) : Prop :=
  (∃ rd csr rs1, i = .csrrw rd csr rs1 ∨ i = .csrrs rd csr rs1 ∨ i = .csrrc rd csr rs1) ∨
    (∃ rd csr uimm, i = .csrrwi rd csr uimm ∨ i = .csrrsi rd csr uimm ∨ i = .csrrci rd csr uimm)

/-- An address the PC may hold: aligned, of XLEN bits (R10, R34). -/
structure GoodPc (xl : XLen) (v : Word) : Prop where
  even : Even v
  fits : xl.Fits v

/-- The shape is the one of the instruction `i`: it says of `i` what the shape alone does not. -/
structure Shape.Of (i : Instr) (s : State) (sh : Shape) : Prop where
  stores : sh.stores = Instr.isStore i
  reserves : sh.reserves = true → Instr.IsReservation i
  csr : sh.accessesCsr = true → Instr.IsCsr i
  mret : sh = .mret → i = .mret
  target : i.wf s.cfg.xlen = true → Even s.instrPc → s.cfg.xlen.Fits s.csr.mepc → ∀ t, sh.target s = some t →
    GoodPc s.cfg.xlen t

/-! ### Alignment (R34) -/

theorem even_iff {v : Word} : Even v ↔ v.getLsbD 0 = false := by
  rw [Even, show (1 : Word) = BitVec.twoPow 64 0 from rfl, BitVec.and_twoPow]
  cases v.getLsbD 0 <;> decide

theorem getLsbD_zero_addOffset (xl : XLen) (a b : Word) :
    (addOffset xl a b).getLsbD 0 = (a.getLsbD 0 ^^ b.getLsbD 0) := by
  simp [addOffset, atXLen, opAdd, BitVec.getElem_add, XLen.bits_pos]

theorem Even.addOffset {a b : Word} (ha : Even a) (hb : Even b) (xl : XLen) : Even (addOffset xl a b) := by
  rw [even_iff] at ha hb ⊢
  rw [getLsbD_zero_addOffset, ha, hb]
  rfl

theorem even_sext_of_lowZero {w : Nat} (hw : 0 < w) {off : BitVec w} (h : lowZero 1 off = true) (xl : XLen) : Even (xl.sext off) := by
  have hoff : off.getLsbD 0 = false := by
    have h' := congrArg (·.getLsbD 0) (eq_of_beq h)
    simpa using h'
  rw [BitVec.getLsbD_eq_getElem hw] at hoff
  rw [even_iff]
  simp [XLen.sext, XLen.wrap, BitVec.getElem_signExtend, hw, hoff]

theorem even_clearBit0 (v : Word) : Even (clearBit0 v) := by
  rw [even_iff]
  simp [clearBit0]

theorem even_clearBits10 (v : Word) : Even (clearBits10 v) := by
  rw [even_iff]
  simp [clearBits10]

theorem fits_and {xl : XLen} {v : Word} (h : xl.Fits v) (w : Word) : xl.Fits (v &&& w) := by
  rw [XLen.Fits, BitVec.toNat_and]
  exact Nat.lt_of_le_of_lt Nat.and_le_left h

theorem goodPc_clearBit0 {xl : XLen} {v : Word} (h : xl.Fits v) : GoodPc xl (clearBit0 v) :=
  ⟨even_clearBit0 v, fits_and h _⟩

/-! ### Each instruction has a shape -/

section
variable {i : Instr} {s : State}

theorem Shape.Of.nop (h : Instr.isStore i = false) : Shape.Of i s .nop := ⟨h.symm, nofun, nofun, nofun, nofun⟩
theorem Shape.Of.result {rd : Reg} {v : Word} (h : Instr.isStore i = false) : Shape.Of i s (.result rd v) :=
  ⟨h.symm, nofun, nofun, nofun, nofun⟩
theorem Shape.Of.load {rd : Reg} {ea : Word} {n : Nat} {ext : Word → Word} (h : Instr.isStore i = false) :
    Shape.Of i s (.load rd ea n ext) := ⟨h.symm, nofun, nofun, nofun, nofun⟩
theorem Shape.Of.store {ea : Word} {n : Nat} {v : Word} (h : Instr.isStore i = true) : Shape.Of i s (.store ea n v) :=
  ⟨h.symm, nofun, nofun, nofun, nofun⟩
theorem Shape.Of.amo {rd : Reg} {a : Word} {n : Nat} {op : (n : Nat) → BitVec n → BitVec n → BitVec n} {src : Word}
    (h : Instr.isStore i = true) : Shape.Of i s (.amo rd a n op src) := ⟨h.symm, nofun, nofun, nofun, nofun⟩
theorem Shape.Of.loadReserved {rd : Reg} {a : Word} {n : Nat} (h : Instr.isStore i = false) (hr : Instr.IsReservation i) :
    Shape.Of i s (.loadReserved rd a n) := ⟨h.symm, fun _ => hr, nofun, nofun, nofun⟩
theorem Shape.Of.storeConditional {rd : Reg} {a : Word} {n : Nat} {v : Word} (h : Instr.isStore i = true)
    (hr : Instr.IsReservation i) : Shape.Of i s (.storeConditional rd a n v) := ⟨h.symm, fun _ => hr, nofun, nofun, nofun⟩
theorem Shape.Of.csrAccess {rd : Reg} {a : CsrAddr} {new : Word → Option Word} (h : Instr.isStore i = false)
    (hc : Instr.IsCsr i) : Shape.Of i s (.csr rd a new) := ⟨h.symm, nofun, fun _ => hc, nofun, nofun⟩

/-- A branch: its offset is even where the instruction is well-formed (R143). -/
theorem Shape.Of.branch {w : Nat} {off : BitVec w} {cond : Bool} (h : Instr.isStore i = false) (hw : 0 < w)
    (heven : i.wf s.cfg.xlen = true → lowZero 1 off = true) : Shape.Of i s (.branch cond (s.cfg.xlen.sext off)) :=
  ⟨h.symm, nofun, nofun, nofun, fun hwf hpc _ _ ht =>
    Option.some.inj ht ▸ ⟨Even.addOffset hpc (even_sext_of_lowZero hw (heven hwf) _) _, fits_addOffset ..⟩⟩

/-- A jump by an offset, likewise. -/
theorem Shape.Of.jump {w : Nat} {off : BitVec w} {rd : Reg} {len : Word} (h : Instr.isStore i = false) (hw : 0 < w)
    (heven : i.wf s.cfg.xlen = true → lowZero 1 off = true) :
    Shape.Of i s (.jump rd len (addOffset s.cfg.xlen s.instrPc (s.cfg.xlen.sext off))) :=
  ⟨h.symm, nofun, nofun, nofun, fun hwf hpc _ _ ht =>
    Option.some.inj ht ▸ ⟨Even.addOffset hpc (even_sext_of_lowZero hw (heven hwf) _) _, fits_addOffset ..⟩⟩

/-- A jump to a register's value, bit 0 cleared (R251). -/
theorem Shape.Of.jumpReg {base off : Word} {rd : Reg} {len : Word} (h : Instr.isStore i = false) :
    Shape.Of i s (.jump rd len (jalrTarget s.cfg.xlen base off)) :=
  ⟨h.symm, nofun, nofun, nofun, fun _ _ _ _ ht => Option.some.inj ht ▸ goodPc_clearBit0 (fits_addOffset ..)⟩

theorem lowZero_of_wf {xl : XLen} {b : Bool} (h : (b && i.operandsOk xl) = true) : i.operandsOk xl = true :=
  (Bool.and_eq_true_iff.1 h).2

end

/-- Every instruction runs one of the shapes. -/
theorem exec_shape (i : Instr) (s : State) : ∃ sh : Shape, exec i s = sh.run s ∧ Shape.Of i s sh := by
  cases i
  case wfi | fence | fenceI => exact ⟨.nop, rfl, .nop rfl⟩
  case lui | auipc | addi | slti | sltiu | xori | ori | andi | slli | srli | srai | add | sub | sll | slt | sltu | xor | srl |
      sra | or | and | addiw | slliw | srliw | sraiw | addw | subw | sllw | srlw | sraw | mul | mulh | mulhsu | mulhu | div |
      divu | rem | remu | mulw | divw | divuw | remw | remuw | cAddi4spn | cNop | cAddi | cAddiw | cLi | cAddi16sp | cLui |
      cSrli | cSrai | cAndi | cSub | cXor | cOr | cAnd | cSubw | cAddw | cSlli | cMv | cAdd =>
    exact ⟨.result _ _, rfl, .result rfl⟩
  case beq | bne | blt | bge | bltu | bgeu | cBeqz | cBnez =>
    exact ⟨.branch _ _, rfl, .branch rfl (by decide) lowZero_of_wf⟩
  case jal | cJal | cJ => exact ⟨.jump _ _ _, rfl, .jump rfl (by decide) lowZero_of_wf⟩
  case jalr | cJr | cJalr => exact ⟨.jump _ _ _, rfl, .jumpReg rfl⟩
  case lb | lh | lw | ld | lbu | lhu | lwu | cLw | cLd | cLwsp | cLdsp => exact ⟨.load _ _ _ _, rfl, .load rfl⟩
  case sb | sh | sw | sd | cSw | cSd | cSwsp | cSdsp => exact ⟨.store _ _ _, rfl, .store rfl⟩
  case lrW => exact ⟨.loadReserved _ _ _, rfl, .loadReserved rfl (.inl ⟨_, _, _, _, .inl rfl⟩)⟩
  case lrD => exact ⟨.loadReserved _ _ _, rfl, .loadReserved rfl (.inl ⟨_, _, _, _, .inr rfl⟩)⟩
  case scW => exact ⟨.storeConditional _ _ _ _, rfl, .storeConditional rfl (.inr ⟨_, _, _, _, _, .inl rfl⟩)⟩
  case scD => exact ⟨.storeConditional _ _ _ _, rfl, .storeConditional rfl (.inr ⟨_, _, _, _, _, .inr rfl⟩)⟩
  case amoswapW | amoaddW | amoxorW | amoandW | amoorW | amominW | amomaxW | amominuW | amomaxuW | amoswapD | amoaddD |
      amoxorD | amoandD | amoorD | amominD | amomaxD | amominuD | amomaxuD =>
    exact ⟨.amo _ _ _ _ _, rfl, .amo rfl⟩
  case csrrw => exact ⟨.csr _ _ _, rfl, .csrAccess rfl (.inl ⟨_, _, _, .inl rfl⟩)⟩
  case csrrs => exact ⟨.csr _ _ _, rfl, .csrAccess rfl (.inl ⟨_, _, _, .inr (.inl rfl)⟩)⟩
  case csrrc => exact ⟨.csr _ _ _, rfl, .csrAccess rfl (.inl ⟨_, _, _, .inr (.inr rfl)⟩)⟩
  case csrrwi => exact ⟨.csr _ _ _, rfl, .csrAccess rfl (.inr ⟨_, _, _, .inl rfl⟩)⟩
  case csrrsi => exact ⟨.csr _ _ _, rfl, .csrAccess rfl (.inr ⟨_, _, _, .inr (.inl rfl)⟩)⟩
  case csrrci => exact ⟨.csr _ _ _, rfl, .csrAccess rfl (.inr ⟨_, _, _, .inr (.inr rfl)⟩)⟩
  case ecall => exact ⟨.ecall, rfl, rfl, nofun, nofun, nofun, nofun⟩
  case ebreak | cEbreak => exact ⟨.ebreak, rfl, rfl, nofun, nofun, nofun, nofun⟩
  case mret =>
    exact ⟨.mret, rfl, rfl, nofun, nofun, fun _ => rfl, fun _ _ hm _ ht => Option.some.inj ht ▸ goodPc_clearBit0 hm⟩

end Sys2Proof.Machine
end

section
/-! PROOFS. What an instruction at EX changes at most, shape by shape (R19, R56, R180, R300). -/

namespace Sys2Proof.Machine

/-! ### What a bus access keeps -/

/-- A Write to `control` keeps the busy bit (R130). -/
theorem DmaBusy.writeControl {s : State} (h : DmaBusy s) (v : BitVec 32) :
    DmaBusy { s with dma := s.dma.writeControl v } := by
  obtain ⟨hcontrol, hbuffer⟩ := h
  unfold Dma.writeControl
  cases hfl : s.dma.inFlight with
  | true =>
    refine ⟨?_, fun _ => rfl⟩
    simpa [hfl] using hcontrol
  | false =>
    rw [if_neg (by decide)]
    split
    · next hv =>
      refine ⟨?_, fun hb => absurd (hbuffer hb) (by rw [hfl]; decide)⟩
      have h0 := congrArg (BitVec.getLsbD · 0) hv
      simpa [hfl] using h0
    · next hv =>
      refine ⟨?_, fun _ => rfl⟩
      have hone : (1 : BitVec 32) = BitVec.twoPow 32 0 := rfl
      rw [hone, BitVec.and_twoPow] at hv
      show v.getLsbD 0 = true
      by_contra hc
      exact hv (if_neg hc)

/-- What a bus access keeps of main memory, the DMA engine and the timer. -/
structure DevicesKept (s t : State) : Prop where
  wf : s.mem.wf = true → t.mem.wf = true
  dma : DmaBusy s → DmaBusy t
  ticks : t.timer.ticks = s.timer.ticks

theorem devicesKept_of_eq {s t : State} (hm : t.mem = s.mem) (hd : t.dma = s.dma) (ht : t.timer = s.timer) :
    DevicesKept s t := by
  refine ⟨fun h => hm ▸ h, fun h => ?_, by rw [ht]⟩
  obtain ⟨hcontrol, hbuffer⟩ := h
  exact ⟨by rw [hd]; exact hcontrol, by rw [hd]; exact hbuffer⟩

theorem DevicesKept.trans {s t u : State} (h : DevicesKept s t) (h' : DevicesKept t u) : DevicesKept s u :=
  ⟨fun hw => h'.wf (h.wf hw), fun hd => h'.dma (h.dma hd), h'.ticks.trans h.ticks⟩

theorem ticks_timer_set (t : Timer) (v : BitVec 64) (r : TimerReg) : (t.set v r).ticks = t.ticks := by cases r <;> rfl

theorem devicesKept_timer {s : State} {timer : Timer} (h : timer.ticks = s.timer.ticks) :
    DevicesKept s { s with timer := timer } := ⟨id, fun ⟨h1, h2⟩ => ⟨h1, h2⟩, h⟩

theorem devicesKept_deviceRead {tg : Target} {off len : Nat} {s t : State} {v : Word}
    (h : deviceRead tg off len s = .ok v t) : DevicesKept s t := by
  cases tg <;> simp only [deviceRead, timerRead, plicRead, dmaRead, hookRead, legacyTermination] at h <;>
    (repeat' split at h) <;> simp only [DevReply.ok.injEq, reduceCtorEq] at h <;> obtain ⟨-, rfl⟩ := h <;>
    exact devicesKept_of_eq rfl rfl rfl

theorem timerWrite_ok {port : Option (TimerReg × TimerPart)} {v w : Word} {s t : State}
    (h : timerWrite port v s = .ok w t) : DevicesKept s t := by
  unfold timerWrite at h
  split at h
  · cases h
    exact devicesKept_timer (ticks_timer_set ..)
  · cases h

theorem dmaWrite_ok {port : Option DmaPort} {v w : Word} {s t : State} (h : dmaWrite port v s = .ok w t) :
    DevicesKept s t := by
  unfold dmaWrite at h
  split at h
  · cases h
    exact ⟨id, fun ⟨h1, h2⟩ => ⟨h1, h2⟩, rfl⟩
  · cases h
    exact ⟨id, fun ⟨h1, h2⟩ => ⟨h1, h2⟩, rfl⟩
  · cases h
    exact ⟨id, fun ⟨h1, h2⟩ => ⟨h1, h2⟩, rfl⟩
  · cases h
    exact ⟨id, fun hd => hd.writeControl _, rfl⟩
  · cases h

theorem devicesKept_deviceWrite {tg : Target} {off len : Nat} {v w : Word} {s t : State}
    (h : deviceWrite tg off len v s = .ok w t) : DevicesKept s t := by
  cases tg
  case clint | legacyTimer => exact timerWrite_ok h
  case dma => exact dmaWrite_ok h
  case plic | uart | trace | syscallHook | legacyTermination =>
    simp only [deviceWrite, plicWrite, uartWrite, traceWrite, hookWrite, legacyTermination] at h
    (repeat' split at h) <;> simp only [DevReply.ok.injEq, reduceCtorEq] at h <;> obtain ⟨-, rfl⟩ := h <;>
      exact devicesKept_of_eq rfl rfl rfl

theorem devicesKept_mainMemory {tx : Tx} {s t : State} {bs : List Byte} (h : mainMemoryAccess tx s = .ok bs t) :
    DevicesKept s t := by
  unfold mainMemoryAccess at h
  split at h
  · cases h
  split at h
  · cases h
  split at h
  · cases h
  split at h
  · cases h
    exact devicesKept_of_eq rfl rfl rfl
  · cases h
    exact ⟨fun hw => Memory.wf_writeBytes _ hw _ _, fun ⟨h1, h2⟩ => ⟨h1, h2⟩, rfl⟩

theorem deviceAccess_ok {tg : Target} {tx : Tx} {s t : State} {bs : List Byte} (h : deviceAccess tg tx s = .ok bs t) :
    DevicesKept s t := by
  simp only [deviceAccess] at h
  split at h
  · next hd =>
    cases h
    split at hd
    · exact devicesKept_deviceRead hd
    · exact devicesKept_deviceWrite hd
  · cases h
  · cases h

theorem devicesKept_transport {tx : Tx} {s t : State} {bs : List Byte} (h : transport tx s = .ok bs t) :
    DevicesKept s t := by
  unfold transport at h
  split at h
  · unfold tohostWrite at h
    split at h <;> cases h
    exact devicesKept_of_eq rfl rfl rfl
  split at h
  · split at h
    · unfold unboundAccess at h
      split at h <;> cases h <;> exact devicesKept_of_eq rfl rfl rfl
    · exact deviceAccess_ok h
  · exact devicesKept_mainMemory h

/-! ### What EX keeps -/

/-- What no instruction changes at EX, accesses of devices included: the parameters, the latches and PCs, interrupt delivery,
the counters, the descriptor, the schedule and the performed ticks; main memory stays canonical, the DMA busy bit right, and
every register within XLEN bits. -/
structure ExFrame (s t : State) : Prop where
  cfg : t.cfg = s.cfg
  two : t.two = s.two
  six : t.six = { s.six with rob := t.six.rob, sb := t.six.sb }
  irq : t.irq = s.irq
  stats : t.stats = s.stats
  dmi : t.dmi = s.dmi
  schedule : t.schedule = s.schedule
  kept : DevicesKept s t
  regs : (∀ r, s.cfg.xlen.Fits (s.x r)) → ∀ r, s.cfg.xlen.Fits (t.x r)

/-- A part of an instruction that touches no CSR, no reservation and no result of EX. -/
structure Quiet (s t : State) : Prop extends ExFrame s t where
  csr : t.csr = s.csr
  reservation : t.reservation = s.reservation
  ex : t.ex = s.ex

theorem exFrame_of_eq {s t : State} (h : t = { s with
    csr := t.csr, reservation := t.reservation, ex := t.ex, outcome := t.outcome, trace := t.trace, draws := t.draws }) :
    ExFrame s t := by
  rw [h]
  exact ⟨rfl, rfl, rfl, rfl, rfl, rfl, rfl, devicesKept_of_eq rfl rfl rfl, id⟩

theorem ExFrame.trans {s t u : State} (h : ExFrame s t) (h' : ExFrame t u) : ExFrame s u where
  cfg := h'.cfg.trans h.cfg
  two := h'.two.trans h.two
  six := by rw [h'.six, h.six]
  irq := h'.irq.trans h.irq
  stats := h'.stats.trans h.stats
  dmi := h'.dmi.trans h.dmi
  schedule := h'.schedule.trans h.schedule
  kept := h.kept.trans h'.kept
  regs hr := by
    have h1 := h'.regs
    rw [h.cfg] at h1
    exact h1 (h.regs hr)

theorem Quiet.trans {s t u : State} (h : Quiet s t) (h' : Quiet t u) : Quiet s u :=
  ⟨h.toExFrame.trans h'.toExFrame, h'.csr.trans h.csr, h'.reservation.trans h.reservation, h'.ex.trans h.ex⟩

theorem quiet_refl (s : State) : Quiet s s := ⟨exFrame_of_eq rfl, rfl, rfl, rfl⟩

theorem quiet_withOutcome (s : State) (o : RunOutcome) : Quiet s (s.withOutcome o) := ⟨exFrame_of_eq rfl, rfl, rfl, rfl⟩

theorem quiet_emitTrace (s : State) (b : Byte) : Quiet s (s.emitTrace b) := ⟨exFrame_of_eq rfl, rfl, rfl, rfl⟩

/-- A register write: the register file holds XLEN bits (R10). -/
theorem quiet_setX (rd : Reg) (v : Word) (s : State) : Quiet s (s.setX rd v) := by
  refine ⟨⟨by simp, by simp, by simp, by simp, by simp, by simp, by simp, ?_, fun hr r => ?_⟩, by simp, by simp, by simp⟩
  · exact devicesKept_of_eq (by simp) (by simp) (by simp)
  · rw [State.x_setX]
    split
    · exact fits_wrap ..
    · exact hr r

/-- A change of the ROB or of the store buffer. -/
theorem quiet_rob (s : State) (rob : List RobEntry) (sb : List SbEntry) :
    Quiet s { s with six := { s.six with rob := rob, sb := sb } } :=
  ⟨⟨rfl, rfl, rfl, rfl, rfl, rfl, rfl, devicesKept_of_eq rfl rfl rfl, id⟩, rfl, rfl, rfl⟩

theorem quiet_writeDest (rd : Reg) (v : Word) (s : State) : Quiet s (s.writeDest rd v) := by
  unfold State.writeDest
  split
  · exact quiet_setX rd v s
  · exact quiet_rob s _ _

theorem quiet_cancelStore (s : State) : Quiet s s.cancelStore := by
  unfold State.cancelStore
  split
  · exact quiet_refl s
  · exact quiet_rob s _ _

theorem quiet_enqueueStore (a : Word) (n : Nat) (v : Word) (s : State) : Quiet s (enqueueStore a n v s) :=
  quiet_rob s _ _

theorem quiet_transport {tx : Tx} {s t : State} {bs : List Byte} (h : transport tx s = .ok bs t) : Quiet s t := by
  have hkept := devicesKept_transport h
  obtain ⟨ht, -⟩ := transport_ok h
  unfold afterAccess at ht
  have hregs : t.regs = s.regs := (congrArg State.regs ht :)
  refine ⟨⟨(congrArg State.cfg ht :), (congrArg State.two ht :), ?_, (congrArg State.irq ht :), (congrArg State.stats ht :),
    (congrArg State.dmi ht :), (congrArg State.schedule ht :), hkept, fun hr r => ?_⟩, (congrArg State.csr ht :),
    (congrArg State.reservation ht :), (congrArg State.ex ht :)⟩
  · rw [show t.six = s.six from (congrArg State.six ht :)]
  · rw [State.x, hregs]
    exact hr r

/-! ### Data accesses that go on, or end the run -/

section
variable {s t : State} {tx : Tx}

theorem dataAccess_ok {v : Word} (h : dataAccess tx s = .ok v t) : Quiet s t ∧ t.outcome = s.outcome ∧ t.six = s.six := by
  unfold dataAccess at h
  split at h <;> cases h
  next hok =>
    obtain ⟨ht, ho⟩ := transport_ok hok
    unfold afterAccess at ht
    exact ⟨quiet_transport hok, ho, (congrArg State.six ht :)⟩

/-- An access that does not return answers a next state only where it ended the run. -/
theorem dataAccess_stopped (h : dataAccess tx s = .stopped (.next t)) : ∃ c, t = s.withOutcome (.stopped c) := by
  unfold dataAccess at h
  split at h <;> cases h
  next heos => exact transport_eos heos

theorem withOutcome_isSome (s : State) (o : RunOutcome) : (s.withOutcome o).outcome.isSome = true := by
  rw [State.withOutcome_outcome]
  cases s.outcome <;> rfl

end

/-- How a part of an instruction goes on: its first access returned, or ended the run. -/
theorem dataAccess_andThen {tx : Tx} {s t : State} {k : Word → State → Result}
    (h : (dataAccess tx s).andThen k = .next t) :
    (∃ v u, Quiet s u ∧ u.outcome = s.outcome ∧ u.six = s.six ∧ k v u = .next t) ∨ Quiet s t ∧ t.outcome.isSome = true := by
  rcases access_andThen_next h with ⟨v, u, hu, hk⟩ | hstop
  · obtain ⟨hq, ho, hsix⟩ := dataAccess_ok hu
    exact .inl ⟨v, u, hq, ho, hsix, hk⟩
  · obtain ⟨c, rfl⟩ := dataAccess_stopped hstop
    exact .inr ⟨quiet_withOutcome s _, withOutcome_isSome s _⟩

/-! ### The store of an instruction, in either pipeline (R301) -/

/-- What the store of an instruction leaves in the 6-stage pipeline: one more entry, for the instruction at EX (R512). -/
def Enqueued (s t : State) : Prop :=
  ∃ e : SbEntry, e.robIndex = s.six.reg.l4.robIndex ∧ t.six = { s.six with sb := s.six.sb ++ [e] }

theorem enqueued_enqueueStore (a : Word) (n : Nat) (v : Word) (s : State) : Enqueued s (enqueueStore a n v s) := ⟨_, rfl, rfl⟩

theorem storeData_andThen {a v : Word} {n : Nat} {s t : State} {k : Word → State → Result}
    (h : (storeData a n v s).andThen k = .next t) :
    (∃ w u, Quiet s u ∧ u.outcome = s.outcome ∧ (s.cfg.pipe = .sixStage → Enqueued s u) ∧ k w u = .next t) ∨
      Quiet s t ∧ t.outcome.isSome = true := by
  unfold storeData at h
  split at h
  · next hp =>
    rcases dataAccess_andThen h with ⟨w, u, hq, ho, -, hk⟩ | hstop
    · exact .inl ⟨w, u, hq, ho, fun hp' => (nomatch hp.symm.trans hp'), hk⟩
    · exact .inr hstop
  · exact .inl ⟨_, _, quiet_enqueueStore a n v s, rfl, fun _ => enqueued_enqueueStore a n v s, h⟩

/-! ### Every shape -/

/-- What an instruction with this shape has done: only a CSR access and MRET write a CSR, only LR and SC the reservation, and a
transfer goes to the shape's target. -/
structure Executed (sh : Shape) (s t : State) : Prop where
  frame : ExFrame s t
  csr : t.csr = s.csr ∨ (sh.accessesCsr = true ∧ ∃ a v, t.csr = s.csr.set a (s.cfg.xlen.wrap v)) ∨
    (sh = .mret ∧ t.csr = { s.csr with mstatus := s.csr.mstatus ||| mieBit })
  reservation : t.reservation = s.reservation ∨ sh.reserves = true
  target : t.ex.target = s.ex.target ∨ ∃ a, sh.target s = some a ∧ t.ex.target = some a

theorem Quiet.executed {s t : State} (h : Quiet s t) (sh : Shape) : Executed sh s t :=
  ⟨h.toExFrame, .inl h.csr, .inl h.reservation, .inl (congrArg ExecResult.target h.ex)⟩

theorem executed_reserve {sh : Shape} {s u : State} (h : Quiet s u) (r : Option Reservation) (hsh : sh.reserves = true) :
    Executed sh s (u.reserve r) :=
  ⟨h.toExFrame.trans (exFrame_of_eq rfl), .inl h.csr, .inr hsh, .inl (congrArg ExecResult.target h.ex)⟩

theorem executed_jumpTo {sh : Shape} {s u : State} (h : Quiet s u) {a : Word} (ha : sh.target s = some a) :
    Executed sh s (u.jumpTo a) :=
  ⟨h.toExFrame.trans (exFrame_of_eq rfl), .inl h.csr, .inl h.reservation, .inr ⟨a, ha, rfl⟩⟩

/-- A stop asked for at EX leaves the target alone (R399). -/
theorem executed_stop (sh : Shape) (s : State) (breakpoint : Bool) (o : RunOutcome) :
    Executed sh s { s with ex := { s.ex with breakpoint := breakpoint, stop := some o } } :=
  ⟨exFrame_of_eq rfl, .inl rfl, .inl rfl, .inl rfl⟩

/-- A CSR access before rd is written (R391). -/
theorem executed_afterCsr (rd : Reg) (a : CsrAddr) (new : Word → Option Word) (s : State) :
    Executed (.csr rd a new) s (afterCsr a new s) := by
  rw [afterCsr_eq]
  refine ⟨exFrame_of_eq rfl, ?_, .inl rfl, .inl rfl⟩
  cases new (s.readCsr a).1 with
  | none => exact .inl rfl
  | some v => exact .inr (.inl ⟨rfl, a, v, rfl⟩)

theorem Executed.writeDest {sh : Shape} {s u : State} (h : Executed sh s u) (rd : Reg) (v : Word) :
    Executed sh s (u.writeDest rd v) := by
  have hq := quiet_writeDest rd v u
  refine ⟨h.frame.trans hq.toExFrame, ?_, ?_, ?_⟩
  · rw [hq.csr]
    exact h.csr
  · rw [hq.reservation]
    exact h.reservation
  · rw [hq.ex]
    exact h.target

/-- The bytes ECALL emits (R398). -/
theorem quiet_emitBytes {a : Word} {n : Nat} : ∀ {i : Nat} {s t : State}, emitBytes a i n s = .next t → Quiet s t := by
  induction n with
  | zero =>
    intro i s t h
    cases h
    exact quiet_refl s
  | succ n ih =>
    intro i s t h
    rcases dataAccess_andThen h with ⟨v, u, hq, -, -, hk⟩ | ⟨hq, -⟩
    · exact (hq.trans (quiet_emitTrace u _)).trans (ih hk)
    · exact hq

section
variable {s t : State}

theorem executed_ecall (h : execEcall s = .next t) : Executed .ecall s t := by
  unfold execEcall at h
  split at h
  · cases h
    exact executed_stop _ s _ _
  split at h
  · exact (quiet_emitBytes h).executed _
  · cases h
    exact (quiet_refl s).executed _

theorem executed_storeConditional {rd : Reg} {a v : Word} {n : Nat} (h : storeConditional rd a n v s = .next t) :
    Executed (.storeConditional rd a n v) s t := by
  unfold storeConditional at h
  split at h
  · rcases storeData_andThen h with ⟨w, u, hq, -, -, hk⟩ | ⟨hq, -⟩
    · cases hk
      exact executed_reserve (hq.trans (quiet_writeDest ..)) _ rfl
    · exact hq.executed _
  · cases h
    exact executed_reserve ((quiet_cancelStore s).trans (quiet_writeDest ..)) _ rfl

theorem quiet_amo {rd : Reg} {a src : Word} {n : Nat} {op : (n : Nat) → BitVec n → BitVec n → BitVec n}
    (h : amo rd a n op src s = .next t) : Quiet s t := by
  rcases dataAccess_andThen h with ⟨v, u, hq, -, -, hk⟩ | ⟨hq, -⟩
  · rcases storeData_andThen hk with ⟨w, u', hq', -, -, hk'⟩ | ⟨hq', -⟩
    · cases hk'
      exact (hq.trans hq').trans (quiet_writeDest ..)
    · exact hq.trans hq'
  · exact hq

/-- What every shape does at most. -/
theorem Shape.executed {sh : Shape} (h : sh.run s = .next t) : Executed sh s t := by
  cases sh with
  | nop =>
    cases h
    exact (quiet_refl s).executed _
  | result rd v =>
    cases h
    exact (quiet_writeDest rd v s).executed _
  | branch cond off =>
    simp only [Shape.run, branchIf] at h
    split at h
    · cases h
      exact executed_jumpTo (quiet_refl s) rfl
    · cases h
      exact (quiet_refl s).executed _
  | jump rd len target =>
    cases h
    exact executed_jumpTo (quiet_writeDest ..) rfl
  | load rd ea n ext =>
    rcases dataAccess_andThen h with ⟨v, u, hq, -, -, hk⟩ | ⟨hq, -⟩
    · cases hk
      exact (hq.trans (quiet_writeDest ..)).executed _
    · exact hq.executed _
  | store ea n v =>
    rcases storeData_andThen h with ⟨w, u, hq, -, -, hk⟩ | ⟨hq, -⟩
    · cases hk
      exact hq.executed _
    · exact hq.executed _
  | loadReserved rd a n =>
    rcases dataAccess_andThen h with ⟨v, u, hq, -, -, hk⟩ | ⟨hq, -⟩
    · cases hk
      exact executed_reserve (hq.trans (quiet_writeDest ..)) _ rfl
    · exact hq.executed _
  | storeConditional rd a n v => exact executed_storeConditional h
  | amo rd a n op src => exact (quiet_amo h).executed _
  | csr rd a new =>
    cases h
    exact (executed_afterCsr rd a new s).writeDest rd _
  | ecall => exact executed_ecall h
  | ebreak =>
    cases h
    exact executed_stop _ s _ _
  | mret =>
    cases h
    exact ⟨exFrame_of_eq rfl, .inr (.inr ⟨rfl, rfl⟩), .inl rfl, .inr ⟨_, rfl, rfl⟩⟩

end

/-- Settles O32. -/
theorem onlyTheNamedInstructionsTouchReservationAndCsrs : Obligations.OnlyTheNamedInstructionsTouchReservationAndCsrs := by
  refine ⟨fun i s t h hr => ?_, fun i s t h hc => ?_⟩
  · obtain ⟨sh, hrun, hof⟩ := exec_shape i s
    have hdone := Shape.executed (hrun ▸ h)
    exact hof.reserves (hdone.reservation.resolve_left hr)
  · obtain ⟨sh, hrun, hof⟩ := exec_shape i s
    have hdone := Shape.executed (hrun ▸ h)
    rcases hdone.csr.resolve_left hc with ⟨hsh, -⟩ | ⟨hsh, hcsr⟩
    · exact .inr (hof.csr hsh)
    · exact .inl ⟨hof.mret hsh, by rw [hcsr]⟩

end Sys2Proof.Machine
end

section
/-! PROOFS. The invariant of a run, part by part, and what keeps it (R9, R10, R34, R37, R128). -/

namespace Sys2Proof.Machine

/-! ### The parts of the invariant -/

/-- Every CSR holds XLEN bits, and the CSR file is canonical. -/
structure CsrGood (xl : XLen) (f : CsrFile) : Prop where
  wf : sparseWf f.other = true
  fits : ∀ a, xl.Fits (f.get a)

/-- The PCs of the 2-stage pipeline. -/
structure TwoGood (xl : XLen) (two : TwoStage) : Prop where
  pc : GoodPc xl two.pc
  latch : GoodPc xl two.latch.pc
  latchNext : GoodPc xl two.latchNext.pc

/-- The PCs and the instructions of four latches. -/
structure LatchesGood (xl : XLen) (l : SixLatches) : Prop where
  l1 : GoodPc xl l.l1.pc
  l2 : GoodPc xl l.l2.pc
  l3 : GoodPc xl l.l3.record.pc
  l4 : GoodPc xl l.l4.pc
  op3 : ∀ i, l.l3.record.op = some i → i.wf xl = true
  op4 : ∀ i, l.l4.op = some i → i.wf xl = true

/-- The busy bit of a DMA engine. -/
structure DmaGood (d : Dma) : Prop where
  control : d.control.getLsbD 0 = d.inFlight
  buffer : d.buffer.isSome = true → d.inFlight = true

/-- The invariant but for the executor's result being empty while the run goes on, field by field. -/
structure Good (s : State) : Prop where
  mem : s.mem.wf = true
  csr : CsrGood s.cfg.xlen s.csr
  two : TwoGood s.cfg.xlen s.two
  pcgen : GoodPc s.cfg.xlen s.six.pcgenPc
  reg : LatchesGood s.cfg.xlen s.six.reg
  next : LatchesGood s.cfg.xlen s.six.next
  regs : ∀ r, s.cfg.xlen.Fits (s.x r)
  dma : DmaGood s.dma
  target : ∀ t, s.ex.target = some t → GoodPc s.cfg.xlen t

theorem Inv.good {s : State} (h : Inv s) : Good s := by
  obtain ⟨⟨hmem, hwf⟩, heven, hops, ⟨hregs, hcsrs, hfits⟩, ⟨hcontrol, hbuffer⟩, -⟩ := h
  exact {
    mem := hmem
    csr := ⟨hwf, hcsrs⟩
    two := ⟨⟨heven.two, hfits.two⟩, ⟨heven.latch, hfits.latch⟩, ⟨heven.latchNext, hfits.latchNext⟩⟩
    pcgen := ⟨heven.pcgen, hfits.pcgen⟩
    reg := ⟨⟨heven.reg.l1, hfits.reg.l1⟩, ⟨heven.reg.l2, hfits.reg.l2⟩, ⟨heven.reg.l3, hfits.reg.l3⟩,
      ⟨heven.reg.l4, hfits.reg.l4⟩, hops.l3, hops.l4⟩
    next := ⟨⟨heven.next.l1, hfits.next.l1⟩, ⟨heven.next.l2, hfits.next.l2⟩, ⟨heven.next.l3, hfits.next.l3⟩,
      ⟨heven.next.l4, hfits.next.l4⟩, hops.next3, hops.next4⟩
    regs := hregs
    dma := ⟨hcontrol, hbuffer⟩
    target := fun t ht => ⟨heven.target t ht, hfits.target t ht⟩ }

theorem Good.everyPc {s : State} (h : Good s) {P : Word → Prop} (hP : ∀ v, GoodPc s.cfg.xlen v → P v) : EveryPc P s where
  two := hP _ h.two.pc
  latch := hP _ h.two.latch
  latchNext := hP _ h.two.latchNext
  pcgen := hP _ h.pcgen
  reg := ⟨hP _ h.reg.l1, hP _ h.reg.l2, hP _ h.reg.l3, hP _ h.reg.l4⟩
  next := ⟨hP _ h.next.l1, hP _ h.next.l2, hP _ h.next.l3, hP _ h.next.l4⟩
  target t ht := hP _ (h.target t ht)

theorem Good.inv {s : State} (h : Good s) (hidle : s.outcome = none → s.ex = ExecResult.none) : Inv s where
  canonical := ⟨h.mem, h.csr.wf⟩
  even := h.everyPc fun _ hv => hv.even
  ops := ⟨h.reg.op3, h.reg.op4, h.next.op3, h.next.op4⟩
  fits := ⟨h.regs, h.csr.fits, h.everyPc fun _ hv => hv.fits⟩
  dma := ⟨h.dma.control, h.dma.buffer⟩
  idle := hidle

/-! ### Values -/

theorem goodPc_zero (xl : XLen) : GoodPc xl 0 := ⟨rfl, fits_zero xl⟩

theorem GoodPc.addOffset {xl : XLen} {a b : Word} (ha : GoodPc xl a) (hb : Even b) : GoodPc xl (addOffset xl a b) :=
  ⟨ha.even.addOffset hb xl, fits_addOffset ..⟩

theorem even_instrLength (w : BitVec 32) : Even (instrLength w) := by
  unfold instrLength
  split <;> rfl

theorem fits_or {xl : XLen} {v w : Word} (hv : xl.Fits v) (hw : xl.Fits w) : xl.Fits (v ||| w) := by
  rw [XLen.Fits, BitVec.toNat_or]
  exact Nat.or_lt_two_pow hv hw

/-! ### The CSR file -/

theorem CsrFile.get_addr (f : CsrFile) (n : CsrName) : f.get n.addr = f.named n := by rw [get, csrName_addr]

theorem CsrGood.named {xl : XLen} {f : CsrFile} (h : CsrGood xl f) (n : CsrName) : xl.Fits (f.named n) :=
  f.get_addr n ▸ h.fits n.addr

theorem CsrGood.set {xl : XLen} {f : CsrFile} (h : CsrGood xl f) (a : CsrAddr) {v : Word} (hv : xl.Fits v) :
    CsrGood xl (f.set a v) := by
  refine ⟨CsrFile.wf_set h.wf a v, fun b => ?_⟩
  rw [CsrFile.get_set h.wf]
  split
  · exact hv
  · exact h.fits b

theorem CsrGood.setNamed {xl : XLen} {f : CsrFile} (h : CsrGood xl f) (n : CsrName) {v : Word} (hv : xl.Fits v) :
    CsrGood xl (f.setNamed v n) := by
  have hset : f.set n.addr v = f.setNamed v n := by rw [CsrFile.set, csrName_addr]
  exact hset ▸ h.set n.addr hv

/-! ### Latches -/

theorem twoGood_bubbles {xl : XLen} {pc : Word} (h : GoodPc xl pc) (flush : Bool) :
    TwoGood xl ⟨pc, .bubble, .bubble, flush⟩ := ⟨h, goodPc_zero xl, goodPc_zero xl⟩

theorem latchesGood_bubbles (xl : XLen) : LatchesGood xl .bubbles :=
  ⟨goodPc_zero xl, goodPc_zero xl, goodPc_zero xl, goodPc_zero xl, nofun, nofun⟩

theorem decode_wf {xl : XLen} {w : BitVec 32} {i : Instr} (h : decode xl w = .ok i) : i.wf xl = true :=
  (encodeOfDecode xl w i h).1

theorem decodeRecord_pc (xl : XLen) (w : BitVec 32) (pc : Word) : (decodeRecord xl w pc).pc = pc := by
  unfold decodeRecord
  split
  · split <;> rfl
  · rfl
  · rfl

theorem decodeRecord_op {xl : XLen} {w : BitVec 32} {pc : Word} {i : Instr} (h : (decodeRecord xl w pc).op = some i) :
    decode xl w = .ok i := by
  unfold decodeRecord at h
  split at h
  · next hd =>
    rw [hd]
    split at h <;> exact congrArg Except.ok (Option.some.inj h)
  · cases h
  · cases h

end Sys2Proof.Machine
end

section
/-! PROOFS. What each part of a step keeps of the invariant: the agents, the poll, EX, and the pipelines' stages (R481 to R524). -/

namespace Sys2Proof.Machine

/-! ### The agents at a boundary (R8, R481) -/

/-- What the agents change: the bus side of the machine, the schedule and the outcome, and nothing of the core. Main memory
stays canonical and the DMA busy bit right. -/
structure AgentsFrame (s t : State) : Prop where
  cfg : t.cfg = s.cfg
  regs : t.regs = s.regs
  csr : t.csr = s.csr
  two : t.two = s.two
  six : t.six = s.six
  irq : t.irq = s.irq
  stats : t.stats = s.stats
  ex : t.ex = s.ex
  wf : s.mem.wf = true → t.mem.wf = true
  dma : DmaBusy s → DmaBusy t

theorem agentsFrame_of_eq {s t : State} (h : t = { s with
    dmi := t.dmi, dmiInvalidate := t.dmiInvalidate, timer := t.timer, outcome := t.outcome, schedule := t.schedule }) :
    AgentsFrame s t := by
  rw [h]
  exact ⟨rfl, rfl, rfl, rfl, rfl, rfl, rfl, rfl, id, fun ⟨h1, h2⟩ => ⟨h1, h2⟩⟩

theorem AgentsFrame.trans {s t u : State} (h : AgentsFrame s t) (h' : AgentsFrame t u) : AgentsFrame s u :=
  ⟨h'.cfg.trans h.cfg, h'.regs.trans h.regs, h'.csr.trans h.csr, h'.two.trans h.two, h'.six.trans h.six,
    h'.irq.trans h.irq, h'.stats.trans h.stats, h'.ex.trans h.ex, h'.wf ∘ h.wf, h'.dma ∘ h.dma⟩

theorem agentsFrame_transport {tx : Tx} {s t : State} {bs : List Byte} (h : transport tx s = .ok bs t) : AgentsFrame s t := by
  have hkept := devicesKept_transport h
  obtain ⟨ht, -⟩ := transport_ok h
  unfold afterAccess at ht
  exact ⟨(congrArg State.cfg ht :), (congrArg State.regs ht :), (congrArg State.csr ht :), (congrArg State.two ht :),
    (congrArg State.six ht :), (congrArg State.irq ht :), (congrArg State.stats ht :), (congrArg State.ex ht :),
    hkept.wf, hkept.dma⟩

theorem agentsFrame_tickTo (due : Nat) (s : State) : AgentsFrame s (s.tickTo due) := by
  unfold State.tickTo
  split <;> exact agentsFrame_of_eq rfl

theorem agentsFrame_tickOnce (s : State) : AgentsFrame s s.tickOnce := by
  unfold State.tickOnce
  split
  · exact agentsFrame_tickTo _ s
  · exact agentsFrame_of_eq rfl

theorem agentsFrame_deliverInvalidation (s : State) : AgentsFrame s s.deliverInvalidation := by
  unfold State.deliverInvalidation
  split <;> exact agentsFrame_of_eq rfl

/-- The end of a transfer clears the busy bit and what it stands for (R132, R133). -/
theorem agentsFrame_dmaDone (s : State) : AgentsFrame s s.dmaDone :=
  ⟨rfl, rfl, rfl, rfl, rfl, rfl, rfl, rfl, id, fun _ => ⟨by simp [State.dmaDone], nofun⟩⟩

/-- One DMA transaction: it goes on with what the bus answers, aborts, or ends the run. -/
theorem dmaTransfer_next {tx : Tx} {s t : State} {k : List Byte → State → Result} (h : dmaTransfer tx s k = .next t) :
    (∃ bs u, meetsDevice s.cfg tx.addr tx.len = false ∧ transport tx s = .ok bs u ∧ k bs u = .next t) ∨
      t = s.dmaDone ∨ ∃ o, t = s.withOutcome o := by
  unfold dmaTransfer at h
  split at h
  · cases h
  next hmeet =>
  split at h
  · next bs u hu => exact .inl ⟨bs, u, Bool.eq_false_iff.2 hmeet, hu, h⟩
  · exact .inr (.inl (Host.Outcome.next.inj h).symm)
  · exact .inr (.inl (Host.Outcome.next.inj h).symm)
  · next heos =>
    cases h
    obtain ⟨c, hc⟩ := transport_eos heos
    exact .inr (.inr ⟨_, hc⟩)
  · cases h

/-- The buffer a Read fills belongs to the transfer in flight (R131). -/
theorem agentsFrame_fillBuffer {s : State} (bytes : List Byte) (h : s.dma.inFlight = true) :
    AgentsFrame s { s with dma := { s.dma with buffer := some bytes } } :=
  ⟨rfl, rfl, rfl, rfl, rfl, rfl, rfl, rfl, id, fun ⟨hcontrol, _⟩ => ⟨hcontrol, fun _ => h⟩⟩

/-- A Read of the DMA initiator that is answered OK changes nothing (R131). -/
theorem transport_dma_read {s u : State} {a : Word} {n : Nat} {bs : List Byte} (hn : n ≠ 0)
    (hmeet : meetsDevice s.cfg a n = false) (h : transport ⟨.dma, .read, a, n, []⟩ s = .ok bs u) : u = s := by
  rw [transport_dma hn hmeet] at h
  cases hin : inMainMemory s.cfg a n with
  | true =>
    rw [mainMemoryAccess_dma_read [] hn hin] at h
    cases h
    rfl
  | false =>
    rw [mainMemoryAccess_dma_outside [] hn _ hin] at h
    cases h

/-- Everything a DMA step can do to the machine (R131 to R133): nothing, the buffer filled, the transfer ended, its Write
performed, or the run ended. -/
theorem dmaStep_cases {s t : State} (h : dmaStep s = .next t) :
    t = s ∨ t = s.dmaDone ∨ (∃ o, t = s.withOutcome o) ∨
    (s.dma.inFlight = true ∧ ∃ bytes, t = { s with dma := { s.dma with buffer := some bytes } }) ∨
    ∃ a n bytes bs u, meetsDevice s.cfg a n = false ∧ transport ⟨.dma, .write, a, n, bytes⟩ s = .ok bs u ∧ t = u.dmaDone := by
  cases hfl : s.dma.inFlight with
  | false =>
    rw [dmaStep, if_neg (Bool.eq_false_iff.1 hfl)] at h
    exact .inl (Host.Outcome.next.inj h).symm
  | true =>
    cases hb : s.dma.buffer with
    | none =>
      by_cases hn : s.dma.xferLen.toNat = 0
      · rw [dmaStep_length_zero hfl hb hn] at h
        exact .inr (.inl (Host.Outcome.next.inj h).symm)
      · rw [dmaStep_read hfl hb hn] at h
        rcases dmaTransfer_next h with ⟨bs, u, hmeet, hu, hk⟩ | hdone | hended
        · cases transport_dma_read hn hmeet hu
          exact .inr (.inr (.inr (.inl ⟨rfl, bs, (Host.Outcome.next.inj hk).symm⟩)))
        · exact .inr (.inl hdone)
        · exact .inr (.inr (.inl hended))
    | some bytes =>
      rw [dmaStep_write hfl hb] at h
      rcases dmaTransfer_next h with ⟨bs, u, hmeet, hu, hk⟩ | hdone | hended
      · exact .inr (.inr (.inr (.inr ⟨_, _, bytes, bs, u, hmeet, hu, (Host.Outcome.next.inj hk).symm⟩)))
      · exact .inr (.inl hdone)
      · exact .inr (.inr (.inl hended))

theorem agentsFrame_dmaStep {s t : State} (h : dmaStep s = .next t) : AgentsFrame s t := by
  rcases dmaStep_cases h with rfl | rfl | ⟨o, rfl⟩ | ⟨hfl, bytes, rfl⟩ | ⟨a, n, bytes, bs, u, -, hu, rfl⟩
  · exact agentsFrame_of_eq rfl
  · exact agentsFrame_dmaDone s
  · exact agentsFrame_of_eq rfl
  · exact agentsFrame_fillBuffer bytes hfl
  · exact (agentsFrame_transport hu).trans (agentsFrame_dmaDone u)

theorem agentsFrame_agentEvent {e : AgentEvent} {s t : State} (h : agentEvent e s = .next t) : AgentsFrame s t := by
  cases e with
  | tick =>
    cases h
    exact agentsFrame_tickOnce s
  | dma => exact agentsFrame_dmaStep h
  | hostStop =>
    cases h
    exact agentsFrame_of_eq rfl

theorem agentsFrame_agentEvents {es : List AgentEvent} {s t : State} (h : agentEvents es s = .next t) :
    AgentsFrame s t := by
  induction es generalizing s with
  | nil =>
    cases h
    exact agentsFrame_of_eq rfl
  | cons e es ih =>
    obtain ⟨u, hu, ⟨-, rfl⟩ | ⟨-, hk⟩⟩ := andThen_next h
    · exact agentsFrame_agentEvent hu
    · exact (agentsFrame_agentEvent hu).trans (ih hk)

theorem agentsFrame_boundary {s t : State} (h : boundary s = .next t) : AgentsFrame s t := by
  have hstart : AgentsFrame s { s with schedule := s.schedule.tail } := agentsFrame_of_eq rfl
  obtain ⟨u, hu, ⟨-, rfl⟩ | ⟨-, hk⟩⟩ := andThen_next h
  · exact hstart.trans (agentsFrame_agentEvents hu)
  · cases hk
    exact ((hstart.trans (agentsFrame_agentEvents hu)).trans (agentsFrame_tickTo _ u)).trans
      (agentsFrame_deliverInvalidation _)

theorem Good.agents {s t : State} (h : Good s) (hf : AgentsFrame s t) : Good t := by
  obtain ⟨hcontrol, hbuffer⟩ := hf.dma ⟨h.dma.control, h.dma.buffer⟩
  constructor
  · exact hf.wf h.mem
  · rw [hf.cfg, hf.csr]
    exact h.csr
  · rw [hf.cfg, hf.two]
    exact h.two
  · rw [hf.cfg, hf.six]
    exact h.pcgen
  · rw [hf.cfg, hf.six]
    exact h.reg
  · rw [hf.cfg, hf.six]
    exact h.next
  · intro r
    rw [hf.cfg, State.x, hf.regs]
    exact h.regs r
  · exact ⟨hcontrol, hbuffer⟩
  · rw [hf.cfg, hf.ex]
    exact h.target

/-! ### The poll (R421 to R427) -/

theorem Good.deassert {s : State} (h : Good s) : Good s.deassert := by
  unfold State.deassert
  split
  · exact ⟨h.mem, h.csr.setNamed .mip (fits_and (h.csr.named .mip) _), h.two, h.pcgen, h.reg, h.next, h.regs, h.dma,
      h.target⟩
  · exact h

theorem Good.precisePc {s : State} (h : Good s) : GoodPc s.cfg.xlen s.precisePc := by
  unfold State.precisePc
  split
  · split
    · exact h.two.latchNext
    · exact h.two.pc
  · split
    · exact h.reg.l3
    split
    · exact h.reg.l2
    split
    · exact h.reg.l1
    · exact h.pcgen

theorem Good.enterInterrupt {s : State} (h : Good s) : Good (enterInterrupt s) := by
  have hpc : GoodPc s.cfg.xlen (clearBits10 s.csr.mtvec) := ⟨even_clearBits10 _, fits_and (h.csr.named .mtvec) _⟩
  have hmeip : s.cfg.xlen.Fits meipBit := by cases s.cfg.xlen <;> decide
  have hcsr := ((h.csr.setNamed .mip (fits_or (h.csr.named .mip) hmeip)).setNamed .mepc h.precisePc.fits).setNamed .mcause
    (show s.cfg.xlen.Fits (irqCauseValue s.cfg) from fits_wrap ..)
  unfold Machine.enterInterrupt State.redirectPipeline
  split
  · exact ⟨h.mem, hcsr, twoGood_bubbles hpc _, h.pcgen, h.reg, h.next, h.regs, h.dma, h.target⟩
  · exact ⟨h.mem, hcsr, h.two, hpc, latchesGood_bubbles _, latchesGood_bubbles _, h.regs, h.dma, h.target⟩

theorem Good.withIrq {s : State} (h : Good s) (irq : IrqState) : Good { s with irq := irq } :=
  ⟨h.mem, h.csr, h.two, h.pcgen, h.reg, h.next, h.regs, h.dma, h.target⟩

theorem Good.entryCheck {s : State} (h : Good s) : Good s.entryCheck := by
  unfold State.entryCheck
  split
  · split
    · exact h.enterInterrupt
    · exact h
  · split
    · split
      · exact h.enterInterrupt
      · exact h.withIrq _
    · exact h.withIrq _

theorem Good.poll {s : State} (h : Good s) : Good (poll s) := h.deassert.entryCheck

/-! ### EX -/

theorem Good.frame {s t : State} (h : Good s) (hf : ExFrame s t) (hcsr : CsrGood s.cfg.xlen t.csr)
    (htarget : ∀ a, t.ex.target = some a → GoodPc s.cfg.xlen a) : Good t := by
  obtain ⟨hcontrol, hbuffer⟩ := hf.kept.dma ⟨h.dma.control, h.dma.buffer⟩
  have hpcgen : t.six.pcgenPc = s.six.pcgenPc := by rw [hf.six]
  have hreg : t.six.reg = s.six.reg := by rw [hf.six]
  have hnext : t.six.next = s.six.next := by rw [hf.six]
  constructor
  · exact hf.kept.wf h.mem
  · rwa [hf.cfg]
  · rw [hf.cfg, hf.two]
    exact h.two
  · rw [hf.cfg, hpcgen]
    exact h.pcgen
  · rw [hf.cfg, hreg]
    exact h.reg
  · rw [hf.cfg, hnext]
    exact h.next
  · rw [hf.cfg]
    exact hf.regs h.regs
  · exact ⟨hcontrol, hbuffer⟩
  · rwa [hf.cfg]

theorem Good.quiet {s t : State} (h : Good s) (hq : Quiet s t) : Good t :=
  h.frame hq.toExFrame (by rw [hq.csr]; exact h.csr) (by rw [hq.ex]; exact h.target)

theorem Good.instrPc {s : State} (h : Good s) : GoodPc s.cfg.xlen s.instrPc := by
  unfold State.instrPc
  split
  · exact h.two.latch
  · exact h.reg.l4

/-- An instruction that is well-formed keeps the invariant at EX. -/
theorem Good.exec {s t : State} {i : Instr} (h : Good s) (hwf : i.wf s.cfg.xlen = true) (hexec : exec i s = .next t) :
    Good t ∧ t.cfg = s.cfg := by
  obtain ⟨sh, hrun, hof⟩ := exec_shape i s
  have hdone := Shape.executed (hrun ▸ hexec)
  refine ⟨h.frame hdone.frame ?_ fun a ha => ?_, hdone.frame.cfg⟩
  · rcases hdone.csr with hcsr | ⟨-, a, v, hcsr⟩ | ⟨-, hcsr⟩ <;> rw [hcsr]
    · exact h.csr
    · exact h.csr.set a (fits_wrap ..)
    · have hmie : s.cfg.xlen.Fits mieBit := by cases s.cfg.xlen <;> decide
      exact h.csr.setNamed .mstatus (fits_or (h.csr.named .mstatus) hmie)
  · rcases hdone.target with hsame | ⟨a', hsh, hjump⟩
    · exact h.target a (hsame ▸ ha)
    · cases hjump.symm.trans ha
      exact hof.target hwf h.instrPc.even (h.csr.named .mepc) a hsh

/-! ### The 2-stage pipeline (R485 to R494) -/

theorem Good.twoAdvance {s : State} (h : Good s) : Good (twoAdvance s) :=
  ⟨h.mem, h.csr, ⟨h.two.pc, h.two.latchNext, h.two.latchNext⟩, h.pcgen, h.reg, h.next, h.regs, h.dma, h.target⟩

theorem Good.executeWord {s t : State} {w : BitVec 32} (h : Good s) (hexec : executeWord w s = .next t) :
    Good t ∧ t.cfg = s.cfg := by
  unfold Machine.executeWord at hexec
  split at hexec
  · next hdec => exact h.exec (decode_wf hdec) hexec
  · cases hexec
    exact ⟨h, rfl⟩

/-- After the executor returns, the state is good and its result is empty. -/
theorem Good.twoAfterExecute {s t : State} (h : Good s) (ht : twoAfterExecute s = .next t) :
    Good t ∧ t.cfg = s.cfg ∧ t.ex = ExecResult.none := by
  unfold Machine.twoAfterExecute at ht
  split at ht
  · cases ht
    exact ⟨⟨h.mem, h.csr, h.two, h.pcgen, h.reg, h.next, h.regs, h.dma, nofun⟩, rfl, rfl⟩
  split at ht
  · next target htarget =>
    cases ht
    exact ⟨⟨h.mem, h.csr, ⟨h.target _ htarget, h.two.latch, h.two.latchNext⟩, h.pcgen, h.reg, h.next, h.regs, h.dma, nofun⟩,
      rfl, rfl⟩
  · cases ht
    exact ⟨⟨h.mem, h.csr, h.two, h.pcgen, h.reg, h.next, h.regs, h.dma, nofun⟩, rfl, rfl⟩

theorem Good.twoEx {s t : State} (h : Good s) (hidle : s.ex = ExecResult.none) (ht : twoEx s = .next t) :
    Good t ∧ t.cfg = s.cfg ∧ t.ex = ExecResult.none := by
  unfold Machine.twoEx at ht
  split at ht
  · split at ht
    · next u hu =>
      obtain ⟨hgood, hcfg⟩ := h.executeWord hu
      obtain ⟨hgood', hcfg', hex⟩ := hgood.twoAfterExecute ht
      exact ⟨hgood', hcfg'.trans hcfg, hex⟩
    · cases ht
    · cases ht
  · cases ht
    exact ⟨h, rfl, hidle⟩

theorem Good.twoLatchFetched {s : State} (h : Good s) (w : BitVec 32) : Good (twoLatchFetched w s) :=
  ⟨h.mem, h.csr, ⟨h.two.pc.addOffset (even_instrLength w), h.two.latch, h.two.pc⟩, h.pcgen, h.reg, h.next, h.regs, h.dma,
    h.target⟩

theorem Good.withDmi {s : State} (h : Good s) (d : Option DmiDescriptor) : Good { s with dmi := d } :=
  ⟨h.mem, h.csr, h.two, h.pcgen, h.reg, h.next, h.regs, h.dma, h.target⟩

/-- A fetch that does not go on gives no next state. -/
theorem fetch_stopped {pc : Word} {s t : State} : fetch pc s ≠ .stopped (.next t) := by
  rw [fetch_eq]
  split
  · exact nofun
  split
  · exact nofun
  split <;> exact nofun

theorem Good.twoIf {s t : State} {before : Memory} (h : Good s) (ht : twoIf before s = .next t) :
    Good t ∧ t.cfg = s.cfg ∧ t.ex = s.ex := by
  have hbubble : GoodPc s.cfg.xlen FetchLatch.bubble.pc := goodPc_zero _
  unfold Machine.twoIf at ht
  split at ht
  · cases ht
    exact ⟨⟨h.mem, h.csr, ⟨h.two.pc, h.two.latch, hbubble⟩, h.pcgen, h.reg, h.next, h.regs, h.dma, h.target⟩, rfl, rfl⟩
  split at ht
  · cases ht
    exact ⟨⟨h.mem, h.csr, ⟨h.two.pc, h.two.latch, hbubble⟩, h.pcgen, h.reg, h.next, h.regs, h.dma, h.target⟩, rfl, rfl⟩
  split at ht
  · next hfetch =>
    obtain ⟨d, rfl, -⟩ := fetch_ok hfetch
    cases ht
    exact ⟨(h.withDmi d).twoLatchFetched _, rfl, rfl⟩
  · next hfetch =>
    rw [ht] at hfetch
    exact absurd hfetch fetch_stopped

theorem Good.twoStages {s t : State} (h : Good s) (hidle : s.ex = ExecResult.none) (ht : twoStages s = .next t) :
    Good t ∧ t.cfg = s.cfg ∧ t.ex = ExecResult.none := by
  obtain ⟨u, hu, hcase⟩ := andThen_next ht
  obtain ⟨hgood, hcfg, hex⟩ := h.twoAdvance.twoEx hidle hu
  rcases hcase with ⟨-, rfl⟩ | ⟨-, hk⟩
  · exact ⟨hgood, hcfg, hex⟩
  · obtain ⟨hgood', hcfg', hex'⟩ := hgood.twoIf hk
    exact ⟨hgood', hcfg'.trans hcfg, hex'.trans hex⟩

end Sys2Proof.Machine
end

section
/-! PROOFS. The invariant in the 6-stage pipeline, and over a whole step (R481, R500 to R524). -/

namespace Sys2Proof.Machine

/-! ### Commit (R501, R512, R520) -/

/-- A commit's Write that returns, or ends the run with the store retired (R415, R520). -/
theorem commitStore_ok_quiet {s t : State} {v : Word} (h : commitStore s = .ok v t) : Quiet s t := by
  unfold commitStore at h
  split at h
  · cases h
    exact quiet_refl s
  · simp only at h
    split at h <;> cases h
    next hw => exact (quiet_rob s _ _).trans (dataAccess_ok hw).1

theorem commitStore_stopped {s t : State} (h : commitStore s = .stopped (.next t)) :
    ∃ u, Quiet s u ∧ u.outcome.isSome = true ∧ t = retireHead u := by
  unfold commitStore at h
  split at h
  · cases h
  · simp only at h
    split at h <;> cases h
    next u hw =>
      obtain ⟨c, rfl⟩ := dataAccess_stopped hw
      exact ⟨_, (quiet_rob s _ _).trans (quiet_withOutcome _ _), withOutcome_isSome _ _, rfl⟩

/-- Everything Commit can do (R501, R520): nothing; a stop raised; the head retired, after its Write where it has one; or the
run ended within the Write. -/
theorem commit_cases {s t : State} (h : commit s = .next t) :
    t = s ∨ (∃ o, t = (retireHead s).withOutcome o) ∨
    (∃ u, (u = s ∨ ∃ v, commitStore s = .ok v u) ∧ t = retireHead (commitRegister (s.robAt s.six.head) u)) ∨
    ∃ u, Quiet s u ∧ u.outcome.isSome = true ∧ t = retireHead u := by
  simp only [commit] at h
  split at h
  · split at h
    · cases h
      exact .inr (.inl ⟨_, rfl⟩)
    · rcases access_andThen_next h with ⟨v, u, hu, hk⟩ | hstop
      · cases hk
        refine .inr (.inr (.inl ⟨u, ?_, rfl⟩))
        split at hu
        · exact .inr ⟨v, hu⟩
        · cases hu
          exact .inl rfl
      · split at hstop
        · exact .inr (.inr (.inr (commitStore_stopped hstop)))
        · cases hstop
  · cases h
    exact .inl rfl

theorem Good.retireHead {s : State} (h : Good s) : Good (retireHead s) :=
  ⟨h.mem, h.csr, h.two, h.pcgen, h.reg, h.next, h.regs, h.dma, h.target⟩

theorem Good.withOutcome {s : State} (h : Good s) (o : RunOutcome) : Good (s.withOutcome o) :=
  h.quiet (quiet_withOutcome s o)

theorem Good.commit {s t : State} (h : Good s) (ht : commit s = .next t) : Good t ∧ t.cfg = s.cfg := by
  rcases commit_cases ht with rfl | ⟨o, rfl⟩ | ⟨u, hu, rfl⟩ | ⟨u, hq, -, rfl⟩
  · exact ⟨h, rfl⟩
  · exact ⟨h.retireHead.withOutcome o, rfl⟩
  · have hq : Quiet s u := by
      rcases hu with rfl | ⟨v, hv⟩
      · exact quiet_refl _
      · exact commitStore_ok_quiet hv
    have hq' := hq.trans (quiet_setX (s.robAt s.six.head).destReg (s.robAt s.six.head).result u)
    exact ⟨(h.quiet hq').retireHead, hq'.cfg⟩
  · exact ⟨(h.quiet hq).retireHead, hq.cfg⟩

/-! ### EX (R502) -/

theorem Good.sixAfterExecute {s t : State} (h : Good s) (ht : sixAfterExecute s = .next t) : Good t ∧ t.cfg = s.cfg := by
  obtain ⟨stats, hnext⟩ := sixAfterExecute_frame s
  cases hnext.symm.trans ht
  exact ⟨⟨h.mem, h.csr, h.two, h.pcgen, h.reg, h.next, h.regs, h.dma, h.target⟩, rfl⟩

theorem Good.sixExecute {s t : State} (h : Good s) (ht : sixExecute s.six.reg.l4.op s = .next t) : Good t ∧ t.cfg = s.cfg := by
  unfold Machine.sixExecute at ht
  split at ht
  · cases ht
    exact ⟨h, rfl⟩
  · next i hop =>
    split at ht
    · cases ht
    · exact h.exec (h.reg.op4 i hop) ht

theorem Good.sixEx {s t : State} (h : Good s) (ht : sixEx s = .next t) : Good t ∧ t.cfg = s.cfg := by
  unfold Machine.sixEx at ht
  split at ht
  · obtain ⟨u, hu, hcase⟩ := andThen_next ht
    obtain ⟨hgood, hcfg⟩ := h.sixExecute hu
    rcases hcase with ⟨-, rfl⟩ | ⟨-, hk⟩
    · exact ⟨hgood, hcfg⟩
    · obtain ⟨hgood', hcfg'⟩ := hgood.sixAfterExecute hk
      exact ⟨hgood', hcfg'.trans hcfg⟩
  · cases ht
    exact ⟨h, rfl⟩

/-! ### The front end (R503 to R508) -/

theorem Good.withNext {s : State} (h : Good s) {l : SixLatches} (hl : LatchesGood s.cfg.xlen l) : Good (s.withNext l) :=
  ⟨h.mem, h.csr, h.two, h.pcgen, h.reg, hl, h.regs, h.dma, h.target⟩

theorem Good.issueBubble {s : State} (h : Good s) : Good (issueBubble s) :=
  h.withNext ⟨h.next.l1, h.next.l2, h.next.l3, goodPc_zero _, h.next.op3, nofun⟩

theorem Good.issue {s : State} (h : Good s) : Good (issue s) :=
  ⟨h.mem, h.csr, h.two, h.pcgen, h.reg, ⟨h.next.l1, h.next.l2, h.next.l3, h.reg.l3, h.next.op3, h.reg.op3⟩, h.regs, h.dma,
    h.target⟩

theorem Good.withStats {s : State} (h : Good s) (stats : Stats) : Good { s with stats := stats } :=
  ⟨h.mem, h.csr, h.two, h.pcgen, h.reg, h.next, h.regs, h.dma, h.target⟩

theorem Good.sixIs {s : State} (h : Good s) : Good (sixIs s).1 ∧ (Machine.sixIs s).1.cfg = s.cfg := by
  unfold Machine.sixIs
  split
  · exact ⟨h.issueBubble, rfl⟩
  split
  · exact ⟨h.issueBubble, rfl⟩
  split
  · exact ⟨h.issueBubble.withStats _, rfl⟩
  · exact ⟨h.issue, rfl⟩

theorem latchesGood_withL3 {xl : XLen} {l : SixLatches} (h : LatchesGood xl l) {l3 : RecordLatch}
    (hpc : GoodPc xl l3.record.pc) (hop : ∀ i, l3.record.op = some i → i.wf xl = true) :
    LatchesGood xl { l with l3 := l3 } := ⟨h.l1, h.l2, hpc, h.l4, hop, h.op4⟩

theorem Good.sixId {s : State} (h : Good s) (stall : Bool) : Good (sixId stall s) := by
  unfold Machine.sixId
  refine h.withNext ?_
  split
  · exact latchesGood_withL3 h.next (goodPc_zero _) nofun
  split
  · exact latchesGood_withL3 h.next h.reg.l3 h.reg.op3
  split
  · refine latchesGood_withL3 h.next ?_ fun i hi => decode_wf (decodeRecord_op hi)
    rw [decodeRecord_pc]
    exact h.reg.l2
  · exact latchesGood_withL3 h.next (goodPc_zero _) nofun

theorem Good.withL2 {s : State} (h : Good s) {l2 : FetchLatch} (hl : GoodPc s.cfg.xlen l2.pc) : Good (s.withL2 l2) :=
  h.withNext ⟨h.next.l1, hl, h.next.l3, h.next.l4, h.next.op3, h.next.op4⟩

theorem Good.withL1 {s : State} (h : Good s) {l1 : PcLatch} (hl : GoodPc s.cfg.xlen l1.pc) : Good (s.withL1 l1) :=
  h.withNext ⟨hl, h.next.l2, h.next.l3, h.next.l4, h.next.op3, h.next.op4⟩

theorem Good.withPcgen {s : State} (h : Good s) {pc : Word} (hpc : GoodPc s.cfg.xlen pc) :
    Good { s with six := { s.six with pcgenPc := pc } } :=
  ⟨h.mem, h.csr, h.two, hpc, h.reg, h.next, h.regs, h.dma, h.target⟩

/-- IF goes on with L2 filled, a stall counted, or a descriptor requested, and ends no run without a fault (R506). -/
theorem sixIf_next {stall : Bool} {s t : State} {k : Stalls → State → Result} (h : sixIf stall s k = .next t) :
    ∃ stalls l2 d stats, (l2 = .bubble ∨ l2 = s.six.reg.l2 ∨ l2.pc = s.six.reg.l1.pc) ∧
      stats.cycles = s.stats.cycles ∧ k stalls ({ s with dmi := d, stats := stats }.withL2 l2) = .next t := by
  unfold sixIf at h
  split at h
  · exact ⟨_, _, s.dmi, s.stats, .inl rfl, rfl, h⟩
  split at h
  · exact ⟨_, _, s.dmi, s.stats, .inr (.inl rfl), rfl, h⟩
  split at h
  · exact ⟨_, _, s.dmi, { s.stats with stalls := s.stats.stalls + 1 }, .inl rfl, rfl, h⟩
  split at h
  · split at h
    · next hfetch =>
      obtain ⟨d, rfl, -⟩ := fetch_ok hfetch
      exact ⟨_, _, d, s.stats, .inr (.inr rfl), rfl, h⟩
    · next hfetch =>
      rw [h] at hfetch
      exact absurd hfetch fetch_stopped
  · exact ⟨_, _, s.dmi, s.stats, .inl rfl, rfl, h⟩

theorem Good.pcGen {s : State} (h : Good s) (stalls : Stalls) : Good (pcGen stalls s) := by
  unfold Machine.pcGen
  split
  · next target htarget => exact (h.withL1 (goodPc_zero _)).withPcgen (h.target _ htarget)
  split
  · exact h.withL1 (goodPc_zero _)
  split
  · exact h.withL1 h.reg.l1
  · have hfour : Even (4 : Word) := rfl
    exact (h.withL1 h.pcgen).withPcgen (h.pcgen.addOffset hfour)

theorem pcGen_frame (stalls : Stalls) (s : State) : ∃ pc l1, pcGen stalls s =
    { s with six := { s.six with pcgenPc := pc, next := { s.six.next with l1 := l1 } } } := by
  unfold pcGen
  split
  · exact ⟨_, _, rfl⟩
  split
  · exact ⟨_, _, rfl⟩
  split <;> exact ⟨_, _, rfl⟩

theorem Good.clockEdge {s : State} (h : Good s) : Good (clockEdge s) :=
  ⟨h.mem, h.csr, h.two, h.pcgen, h.next, h.next, h.regs, h.dma, nofun⟩

theorem sixFrontEnd_eq (s : State) : sixFrontEnd s = sixIf (sixIs s).2 (sixId (sixIs s).2 (sixIs s).1)
    fun stalls s' => .next (clockEdge (pcGen stalls s')) := rfl

theorem Good.sixFrontEnd {s t : State} (h : Good s) (ht : sixFrontEnd s = .next t) :
    Good t ∧ t.cfg = s.cfg ∧ t.ex = ExecResult.none := by
  rw [sixFrontEnd_eq] at ht
  obtain ⟨stalls, l2, d, stats, hl2, -, hk⟩ := sixIf_next ht
  obtain ⟨his, hcfg⟩ := h.sixIs
  have hid := (his.sixId (Machine.sixIs s).2)
  have hgood : Good ({ Machine.sixId (Machine.sixIs s).2 (Machine.sixIs s).1 with dmi := d, stats := stats }.withL2 l2) := by
    refine ((hid.withDmi d).withStats stats).withL2 ?_
    rcases hl2 with rfl | rfl | hpc
    · exact goodPc_zero _
    · exact hid.reg.l2
    · rw [hpc]
      exact hid.reg.l1
  obtain ⟨pc, l1, hpcgen⟩ := pcGen_frame stalls
    ({ Machine.sixId (Machine.sixIs s).2 (Machine.sixIs s).1 with dmi := d, stats := stats }.withL2 l2)
  cases hk
  refine ⟨(hgood.pcGen stalls).clockEdge, ?_, rfl⟩
  rw [hpcgen]
  exact hcfg

theorem Good.sixStages {s t : State} (h : Good s) (ht : sixStages s = .next t) :
    Good t ∧ t.cfg = s.cfg ∧ (t.outcome = none → t.ex = ExecResult.none) := by
  obtain ⟨u, hu, hcase⟩ := andThen_next ht
  have hback : Good u ∧ u.cfg = s.cfg := by
    obtain ⟨c, hc, hcase'⟩ := andThen_next hu
    obtain ⟨hgood, hcfg⟩ := h.commit hc
    rcases hcase' with ⟨-, rfl⟩ | ⟨-, hk⟩
    · exact ⟨hgood, hcfg⟩
    · obtain ⟨hgood', hcfg'⟩ := hgood.sixEx hk
      exact ⟨hgood', hcfg'.trans hcfg⟩
  rcases hcase with ⟨hended, rfl⟩ | ⟨-, hk⟩
  · exact ⟨hback.1, hback.2, fun hrun => by simp [hrun] at hended⟩
  · obtain ⟨hgood, hcfg, hex⟩ := hback.1.sixFrontEnd hk
    exact ⟨hgood, hcfg.trans hback.2, fun _ => hex⟩

/-! ### The whole step (R481) -/

theorem Good.stages {s t : State} (h : Good s) (hidle : s.ex = ExecResult.none) (ht : stages s = .next t) :
    Good t ∧ t.cfg = s.cfg ∧ (t.outcome = none → t.ex = ExecResult.none) := by
  unfold Machine.stages at ht
  split at ht
  · obtain ⟨hgood, hcfg, hex⟩ := h.twoStages hidle ht
    exact ⟨hgood, hcfg, fun _ => hex⟩
  · exact h.sixStages ht

theorem Good.cycleWork {s t : State} (h : Good s) (hidle : s.ex = ExecResult.none) (ht : cycleWork s = .next t) :
    Good t ∧ t.cfg = s.cfg ∧ (t.outcome = none → t.ex = ExecResult.none) := by
  unfold Machine.cycleWork at ht
  split at ht
  · cases ht
    exact ⟨(h.withStats _).withIrq _, rfl, fun _ => hidle⟩
  · exact h.stages hidle ht

theorem Good.cycle {s t : State} (h : Good s) (hidle : s.ex = ExecResult.none) (ht : cycle s = .next t) :
    Good t ∧ t.cfg = s.cfg ∧ (t.outcome = none → t.ex = ExecResult.none) := by
  have hpoll := sameButTrap_poll s
  obtain ⟨u, hu, hcase⟩ := andThen_next ht
  obtain ⟨hgood, hcfg, hex⟩ := h.poll.cycleWork (hpoll.rest.1.trans hidle) hu
  rcases hcase with ⟨-, rfl⟩ | ⟨-, hk⟩
  · exact ⟨hgood, hcfg.trans hpoll.cfg, hex⟩
  · cases hk
    exact ⟨hgood.withStats _, hcfg.trans hpoll.cfg, hex⟩

/-- Settles O11. -/
theorem everyStepKeepsTheInvariant : Obligations.EveryStepKeepsTheInvariant := by
  intro s t h ht
  cases hs : s.outcome with
  | some o =>
    rw [step, hs] at ht
    cases ht
  | none =>
    rw [step, hs] at ht
    obtain ⟨b, hb, hcase⟩ := andThen_next ht
    have hframe := agentsFrame_boundary hb
    have hgood := h.good.agents hframe
    have hidle : b.ex = ExecResult.none := hframe.ex.trans (h.idle hs)
    rcases hcase with ⟨-, rfl⟩ | ⟨-, hk⟩
    · exact ⟨hgood.inv fun _ => hidle, hframe.cfg⟩
    · obtain ⟨hgood', hcfg, hex⟩ := hgood.cycle hidle hk
      exact ⟨hgood'.inv hex, hcfg.trans hframe.cfg⟩

end Sys2Proof.Machine
end

section
/-! PROOFS. The lockstep of the 6-stage pipeline (R512, R514, R517, R518). -/

namespace Sys2Proof.Machine

/-! ### What EX does to the ROB and the store buffer -/

/-- The register result of the instruction at EX is all that changes of the ROB; the store buffer is unchanged. -/
structure RobOnly (s t : State) : Prop where
  l4 : t.six.reg.l4 = s.six.reg.l4
  length : t.six.rob.length = s.six.rob.length
  others : ∀ j, j ≠ s.six.reg.l4.robIndex → t.robAt j = s.robAt j
  valid : (t.robAt s.six.reg.l4.robIndex).valid = (s.robAt s.six.reg.l4.robIndex).valid
  isStore : (t.robAt s.six.reg.l4.robIndex).isStore = (s.robAt s.six.reg.l4.robIndex).isStore
  sb : t.six.sb = s.six.sb

/-- What an instruction leaves at EX: its own entry still valid, every other entry alone, and where the entry says that there is
a store to perform, that store at the end of the store buffer (R512). -/
structure RobStep (stores : Bool) (s t : State) : Prop where
  length : t.six.rob.length = s.six.rob.length
  others : ∀ j, j ≠ s.six.reg.l4.robIndex → t.robAt j = s.robAt j
  valid : (t.robAt s.six.reg.l4.robIndex).valid = (s.robAt s.six.reg.l4.robIndex).valid
  stored : (s.robAt s.six.reg.l4.robIndex).isStore = stores → if (t.robAt s.six.reg.l4.robIndex).isStore
    then ∃ e, t.six.sb = s.six.sb ++ [e] ∧ e.robIndex = s.six.reg.l4.robIndex else t.six.sb = s.six.sb

theorem robOnly_of_six {s t : State} (h : t.six = s.six) : RobOnly s t := by
  refine ⟨by rw [h], by rw [h], fun j _ => ?_, ?_, ?_, by rw [h]⟩ <;> rw [State.robAt, h, State.robAt]

theorem robOnly_refl (s : State) : RobOnly s s := robOnly_of_six rfl
theorem robOnly_jumpTo (a : Word) (s : State) : RobOnly s (s.jumpTo a) := robOnly_of_six rfl
theorem robOnly_reserve (r : Option Reservation) (s : State) : RobOnly s (s.reserve r) := robOnly_of_six rfl
theorem robOnly_breakpoint (s : State) : RobOnly s s.breakpoint := robOnly_of_six rfl
theorem robOnly_returnFromTrap (s : State) : RobOnly s (returnFromTrap s) := robOnly_of_six rfl

theorem RobOnly.trans {s t u : State} (h : RobOnly s t) (h' : RobOnly t u) : RobOnly s u := by
  obtain ⟨h1, h2, h3, h4, h5, h6⟩ := h'
  rw [h.l4] at h3 h4 h5
  exact ⟨h1.trans h.l4, h2.trans h.length, fun j hj => (h3 j hj).trans (h.others j hj), h4.trans h.valid,
    h5.trans h.isStore, h6.trans h.sb⟩

/-- A change of fields of the entry of the instruction at EX. -/
theorem robAt_set {s t : State} {i : Nat} {e : RobEntry} (h : t.six.rob = s.six.rob.set i e) (j : Nat) :
    t.robAt j = if j = i ∧ i < s.six.rob.length then e else s.robAt j := by
  rw [State.robAt, h]
  exact robAt_setRob (s := s) j

theorem setRobResult_rob (i : Nat) (v : Word) (s : State) :
    (setRobResult i v s).six.rob = s.six.rob.set i { s.robAt i with result := v } := rfl

theorem robOnly_setRobResult (v : Word) (s : State) : RobOnly s (setRobResult s.six.reg.l4.robIndex v s) := by
  have hrob := robAt_set (setRobResult_rob s.six.reg.l4.robIndex v s)
  refine ⟨rfl, List.length_set, fun j hj => ?_, ?_, ?_, rfl⟩
  · rw [hrob, if_neg fun h => hj h.1]
  · rw [hrob]
    split <;> rfl
  · rw [hrob]
    split <;> rfl

theorem robOnly_writeDest (rd : Reg) (v : Word) (s : State) : RobOnly s (s.writeDest rd v) := by
  unfold State.writeDest
  split
  · exact robOnly_of_six (State.setX_six ..)
  · exact robOnly_setRobResult _ s

/-- An instruction without a store. -/
theorem RobOnly.step {s t : State} (h : RobOnly s t) : RobStep false s t :=
  ⟨h.length, h.others, h.valid, fun hs => by rw [if_neg (by rw [h.isStore, hs]; decide)]; exact h.sb⟩

/-- An instruction that performs a store. -/
theorem robStep_enqueued {s u v t : State} (h : RobOnly s u) (hq : Enqueued u v) (h' : RobOnly v t) : RobStep true s t := by
  obtain ⟨e, he, hv⟩ := hq
  have hmid : ∀ j, v.robAt j = u.robAt j := fun j => by rw [State.robAt, hv, State.robAt]
  obtain ⟨-, h2, h3, h4, h5, h6⟩ := h'
  rw [hv, h.l4] at h3 h4 h5
  rw [hv] at h2 h6
  refine ⟨h2.trans h.length, fun j hj => ((h3 j hj).trans (hmid j)).trans (h.others j hj),
    (h4.trans (congrArg RobEntry.valid (hmid _))).trans h.valid, fun hs => ?_⟩
  rw [if_pos ((h5.trans (congrArg RobEntry.isStore (hmid _))).trans (h.isStore.trans hs))]
  exact ⟨e, h6.trans (congrArg (· ++ [e]) h.sb), he.trans (congrArg IssueLatch.robIndex h.l4)⟩

theorem cancelStore_rob {s : State} (hp : s.cfg.pipe = .sixStage) : s.cancelStore.six.rob =
    s.six.rob.set s.six.reg.l4.robIndex { s.robAt s.six.reg.l4.robIndex with isStore := false } := by
  rw [State.cancelStore, hp]
  rfl

/-- A failed SC: its entry has no store any more (R512). -/
theorem robStep_cancelStore {s t : State} (hp : s.cfg.pipe = .sixStage) (h : RobOnly s.cancelStore t) :
    RobStep true s t := by
  have hrob := robAt_set (cancelStore_rob hp)
  have hl4 : s.cancelStore.six.reg.l4 = s.six.reg.l4 := by rw [(quiet_cancelStore s).six]
  have hsb : s.cancelStore.six.sb = s.six.sb := by
    rw [State.cancelStore, hp]
  obtain ⟨-, h2, h3, h4, h5, h6⟩ := h
  rw [hl4] at h3 h4 h5
  refine ⟨?_, fun j hj => ?_, ?_, fun _ => ?_⟩
  · rw [h2, cancelStore_rob hp, List.length_set]
  · rw [h3 j hj, hrob, if_neg fun hc => hj hc.1]
  · rw [h4, hrob]
    split <;> rfl
  · have hno : (t.robAt s.six.reg.l4.robIndex).isStore = false := by
      rw [h5, hrob]
      split
      · rfl
      · next hx =>
        rw [robAt_of_length_le (by simpa using hx)]
        rfl
    rw [if_neg (Bool.eq_false_iff.1 hno), h6, hsb]

theorem six_emitBytes {a : Word} {n : Nat} : ∀ {i : Nat} {s t : State}, emitBytes a i n s = .next t → t.outcome = none →
    t.six = s.six := by
  induction n with
  | zero =>
    intro i s t h _
    cases h
    rfl
  | succ n ih =>
    intro i s t h hrun
    rcases dataAccess_andThen h with ⟨v, u, -, -, hsix, hk⟩ | ⟨-, hended⟩
    · exact (ih hk hrun).trans hsix
    · simp [hrun] at hended

section
variable {s t : State}

theorem robOnly_execEcall (h : execEcall s = .next t) (hrun : t.outcome = none) : RobOnly s t := by
  unfold execEcall at h
  split at h
  · cases h
    exact robOnly_of_six rfl
  split at h
  · exact robOnly_of_six (six_emitBytes h hrun)
  · cases h
    exact robOnly_of_six rfl

theorem robOnly_afterCsr (a : CsrAddr) (new : Word → Option Word) (s : State) : RobOnly s (afterCsr a new s) := by
  rw [afterCsr_eq]
  exact robOnly_of_six rfl

/-- What every shape does to the ROB and the store buffer of the 6-stage pipeline. -/
theorem Shape.robStep {sh : Shape} (hp : s.cfg.pipe = .sixStage) (h : sh.run s = .next t) (hrun : t.outcome = none) :
    RobStep sh.stores s t := by
  have hgoes : ¬t.outcome.isSome = true := by simp [hrun]
  cases sh with
  | nop =>
    cases h
    exact (robOnly_refl s).step
  | result rd v =>
    cases h
    exact (robOnly_writeDest rd v s).step
  | branch cond off =>
    simp only [Shape.run, branchIf] at h
    split at h <;> cases h
    · exact (robOnly_jumpTo _ s).step
    · exact (robOnly_refl s).step
  | jump rd len target =>
    cases h
    exact ((robOnly_writeDest ..).trans (robOnly_jumpTo ..)).step
  | load rd ea n ext =>
    rcases dataAccess_andThen h with ⟨v, u, -, -, hsix, hk⟩ | ⟨-, hended⟩
    · cases hk
      exact ((robOnly_of_six hsix).trans (robOnly_writeDest ..)).step
    · exact absurd hended hgoes
  | store ea n v =>
    rcases storeData_andThen h with ⟨w, u, -, -, henq, hk⟩ | ⟨-, hended⟩
    · cases hk
      exact robStep_enqueued (robOnly_refl s) (henq hp) (robOnly_refl _)
    · exact absurd hended hgoes
  | loadReserved rd a n =>
    rcases dataAccess_andThen h with ⟨v, u, -, -, hsix, hk⟩ | ⟨-, hended⟩
    · cases hk
      exact (((robOnly_of_six hsix).trans (robOnly_writeDest ..)).trans (robOnly_reserve ..)).step
    · exact absurd hended hgoes
  | storeConditional rd a n v =>
    simp only [Shape.run, Machine.storeConditional] at h
    split at h
    · rcases storeData_andThen h with ⟨w, u, -, -, henq, hk⟩ | ⟨-, hended⟩
      · cases hk
        exact robStep_enqueued (robOnly_refl s) (henq hp) ((robOnly_writeDest ..).trans (robOnly_reserve ..))
      · exact absurd hended hgoes
    · cases h
      exact robStep_cancelStore hp ((robOnly_writeDest ..).trans (robOnly_reserve ..))
  | amo rd a n op src =>
    rcases dataAccess_andThen h with ⟨v, u, hq, -, hsix, hk⟩ | ⟨-, hended⟩
    · rcases storeData_andThen hk with ⟨w, u', -, -, henq, hk'⟩ | ⟨-, hended⟩
      · cases hk'
        exact robStep_enqueued (robOnly_of_six hsix) (henq (by rw [hq.cfg, hp])) (robOnly_writeDest ..)
      · exact absurd hended hgoes
    · exact absurd hended hgoes
  | csr rd a new =>
    cases h
    exact ((robOnly_afterCsr a new s).trans (robOnly_writeDest ..)).step
  | ecall => exact (robOnly_execEcall h hrun).step
  | ebreak =>
    cases h
    exact (robOnly_breakpoint s).step
  | mret =>
    cases h
    exact (robOnly_returnFromTrap s).step

end

end Sys2Proof.Machine
end

section
/-! PROOFS. Every 6-stage step keeps the lockstep (R514, R517, R518). -/

namespace Sys2Proof.Machine

/-! ### Ring positions -/

section
variable {s t : State}

theorem robPos_lt (hroom : 2 ≤ s.cfg.robN) (k : Nat) : s.robPos k < s.cfg.robN := Nat.mod_lt _ (by omega)

theorem robPos_zero (h : s.six.head < s.cfg.robN) : s.robPos 0 = s.six.head := Nat.mod_eq_of_lt h

/-- With room for two entries the position above the head is another one. -/
theorem robPos_one_ne_head (hroom : 2 ≤ s.cfg.robN) (h : s.six.head < s.cfg.robN) : s.robPos 1 ≠ s.six.head := by
  unfold State.robPos
  by_cases hlast : s.six.head + 1 < s.cfg.robN
  · rw [Nat.mod_eq_of_lt hlast]
    omega
  · have hwrap : s.six.head + 1 = s.cfg.robN := by omega
    rw [hwrap, Nat.mod_self]
    omega

theorem robPos_congr (hcfg : t.cfg = s.cfg) (hhead : t.six.head = s.six.head) (k : Nat) : t.robPos k = s.robPos k := by
  rw [State.robPos, hcfg, hhead, State.robPos]

/-- The positions seen from the next head. -/
theorem robPos_of_head_succ (hcfg : t.cfg = s.cfg) (hhead : t.six.head = (s.six.head + 1) % s.cfg.robN) (k : Nat) :
    t.robPos k = s.robPos (k + 1) := by
  rw [State.robPos, hcfg, hhead, State.robPos, Nat.mod_add_mod]
  congr 1
  omega

theorem robPos_succ (k : Nat) : s.robPos (k + 1) = (s.robPos k + 1) % s.cfg.robN := by
  rw [State.robPos, State.robPos, Nat.mod_add_mod]
  rfl

theorem robAt_congr (h : t.six.rob = s.six.rob) (j : Nat) : t.robAt j = s.robAt j := by rw [State.robAt, h, State.robAt]

end

theorem LockstepAt.congr {waiting : Bool} {s t : State} (h : LockstepAt waiting s) (hcfg : t.cfg = s.cfg)
    (hsix : t.six = s.six) : LockstepAt waiting t := by
  have hpos := robPos_congr hcfg (congrArg SixStage.head hsix)
  have hrob := robAt_congr (congrArg SixStage.rob hsix)
  obtain ⟨h1, h2, h3, h4, h5, h6, h7, h8⟩ := h
  constructor
  · rw [hsix, hcfg, h1]
  · rw [hsix, hcfg]
    exact h2
  · rw [hsix, h3]
  · rw [hsix, h4, hpos]
  · rw [hsix, hrob]
    exact h5
  · rw [hsix, hpos, hrob]
    exact h6
  · intro j hj
    rw [hrob]
    exact h7 j fun k hk => by rw [← hpos]; exact hj k (by rwa [hsix])
  · rw [hsix, hrob]
    exact h8

/-! ### Commit empties the head -/

/-- The head has left the ROB and the store buffer is empty; the latches are as before. -/
structure HeadRetired (s t : State) : Prop where
  cfg : t.cfg = s.cfg
  length : t.six.rob.length = s.six.rob.length
  head : t.six.head = (s.six.head + 1) % s.cfg.robN
  count : t.six.count = s.six.count - 1
  tail : t.six.tail = s.six.tail
  reg : t.six.reg = s.six.reg
  sb : t.six.sb = []
  left : (t.robAt s.six.head).valid = false
  others : ∀ j, j ≠ s.six.head → t.robAt j = s.robAt j

theorem headRetired_commitRegister (e : RobEntry) {s u : State} (hcfg : u.cfg = s.cfg)
    (hsix : u.six = { s.six with sb := [] }) : HeadRetired s (retireHead (commitRegister e u)) := by
  have h := retired_commitRegister e u
  have hcount := h.count
  have hhead := h.head
  have htail := h.tail
  have hleft := h.left
  have hothers := h.others
  have hsb := h.sb
  rw [hsix] at hcount hhead htail hleft hothers hsb
  have hkeep : (commitRegister e u).six = u.six := State.setX_six ..
  have hlen : (retireHead (commitRegister e u)).six.rob.length = (commitRegister e u).six.rob.length := List.length_set
  have hreg : (retireHead (commitRegister e u)).six.reg = (commitRegister e u).six.reg := rfl
  rw [hkeep, hsix] at hlen hreg
  refine ⟨?_, hlen, by rw [hhead, hcfg], hcount, htail, hreg, hsb, hleft, fun j hj => ?_⟩
  · exact (State.setX_cfg ..).trans hcfg
  · rw [hothers j hj, State.robAt, hsix, State.robAt]

theorem LockstepAt.retire {s t : State} (h : LockstepAt true s) (hroom : 2 ≤ s.cfg.robN) (hr : HeadRetired s t) :
    LockstepAt false t := by
  have hpos := robPos_of_head_succ hr.cfg hr.head
  have hcount : t.six.count = s.six.reg.l4.valid.toNat := by
    rw [hr.count, h.count, Bool.toNat_true]
    omega
  constructor
  · rw [hr.length, hr.cfg, h.size]
  · rw [hr.head, hr.cfg]
    exact Nat.mod_lt _ (by omega)
  · rw [hcount, hr.reg, Bool.toNat_false, Nat.zero_add]
  · rw [hr.tail, h.tail, hpos, hcount, h.count, Bool.toNat_true, Nat.add_comm]
  · exact nofun
  · rw [hr.reg]
    intro hvalid
    obtain ⟨hindex, hentry⟩ := h.inEx hvalid
    have hne : s.six.reg.l4.robIndex ≠ s.six.head := hindex ▸ robPos_one_ne_head hroom h.head
    rw [hr.others _ hne]
    exact ⟨hindex.trans (hpos 0).symm, hentry⟩
  · intro j hj
    by_cases hhead : j = s.six.head
    · rw [hhead]
      exact hr.left
    · rw [hr.others j hhead]
      refine h.others j fun k hk => ?_
      cases k with
      | zero => rwa [robPos_zero h.head]
      | succ k =>
        rw [← hpos]
        refine hj k ?_
        rw [hr.count]
        omega
  · exact hr.sb

/-- The Write of the one store in the buffer leaves it empty (R512). -/
theorem commitStore_six {s u : State} {e : SbEntry} {v : Word} (hsb : s.six.sb = [e]) (h : commitStore s = .ok v u) :
    u.six = { s.six with sb := [] } := by
  simp only [commitStore, hsb] at h
  split at h <;> cases h
  next hw => exact (dataAccess_ok hw).2.2

/-- Commit of the waiting instruction, where the run goes on (R518). -/
theorem LockstepAt.commit_waiting {s c : State} (h : LockstepAt true s) (hc : commit s = .next c) (hgo : c.outcome = none) :
    HeadRetired s c := by
  have hended : ¬c.outcome.isSome = true := by simp [hgo]
  have hcount : s.six.count > 0 := by
    rw [h.count, Bool.toNat_true]
    omega
  obtain ⟨-, hready⟩ := h.ready rfl
  cases hstop : (s.robAt s.six.head).exception with
  | some o =>
    cases (commit_stop hcount hready hstop).symm.trans hc
    exact absurd (withOutcome_isSome _ o) hended
  | none =>
    rw [commit_ready hcount hready hstop] at hc
    have hstores := h.stores
    cases hst : (s.robAt s.six.head).isStore with
    | false =>
      rw [hst, if_neg (by decide)] at hc hstores
      cases hc
      exact headRetired_commitRegister _ rfl (by rw [← hstores])
    | true =>
      rw [hst, if_pos rfl] at hc
      rw [hst, if_pos (by rfl)] at hstores
      obtain ⟨e, hsb, -⟩ := hstores
      rcases access_andThen_next hc with ⟨v, u, hu, hk⟩ | hstopped
      · cases hk
        exact headRetired_commitRegister _ (commitStore_ok_quiet hu).cfg (commitStore_six hsb hu)
      · obtain ⟨u, -, houtcome, rfl⟩ := commitStore_stopped hstopped
        exact absurd houtcome hended

/-- With nothing waiting, Commit does nothing. -/
theorem LockstepAt.commit_idle {s : State} (h : LockstepAt false s) : commit s = .next s := by
  apply Machine.commit_idle
  have hcount := h.count
  cases hvalid : s.six.reg.l4.valid with
  | false =>
    rw [hvalid] at hcount
    rw [hcount]
    rfl
  | true =>
    obtain ⟨hindex, -, hready, -⟩ := h.inEx hvalid
    rw [hindex, Bool.toNat_false, robPos_zero h.head] at hready
    rw [hready, Bool.and_false]

/-- After Commit the only entry left is that of the instruction in L4. -/
theorem LockstepAt.commit {waiting : Bool} {s c : State} (h : LockstepAt waiting s) (hroom : 2 ≤ s.cfg.robN)
    (hc : commit s = .next c) (hgo : c.outcome = none) : LockstepAt false c ∧ c.six.head = s.robPos waiting.toNat ∧
      c.six.reg = s.six.reg ∧ c.cfg = s.cfg := by
  cases waiting with
  | false =>
    cases h.commit_idle.symm.trans hc
    exact ⟨h, (robPos_zero h.head).symm, rfl, rfl⟩
  | true =>
    have hr := h.commit_waiting hc hgo
    exact ⟨h.retire hroom hr, hr.head, hr.reg, hr.cfg⟩

/-! ### EX completes the entry -/

/-- The lockstep between EX and IS: only the instruction that executed in this cycle, if one did, is in the ROB. -/
structure Awaiting (waiting : Bool) (s : State) : Prop where
  size : s.six.rob.length = s.cfg.robN
  head : s.six.head < s.cfg.robN
  count : s.six.count = waiting.toNat
  tail : s.six.tail = s.robPos s.six.count
  ready : waiting = true → (s.robAt s.six.head).valid = true ∧ (s.robAt s.six.head).ready = true
  others : ∀ j, (∀ k, k < s.six.count → j ≠ s.robPos k) → (s.robAt j).valid = false
  stores : if waiting && (s.robAt s.six.head).isStore then ∃ e, s.six.sb = [e] ∧ e.robIndex = s.six.head
    else s.six.sb = []

theorem LockstepAt.awaiting {waiting : Bool} {s : State} (h : LockstepAt waiting s) (hl4 : s.six.reg.l4.valid = false) :
    Awaiting waiting s := by
  refine ⟨h.size, h.head, ?_, h.tail, h.ready, h.others, h.stores⟩
  rw [h.count, hl4]
  rfl

/-- What the executor leaves for the instruction in L4, whether its word is one of a row or not (R160, R502). -/
theorem sixExecute_robStep {s t : State} (hp : s.cfg.pipe = .sixStage) (h : sixExecute s.six.reg.l4.op s = .next t)
    (hgo : t.outcome = none) : ExFrame s t ∧ RobStep (s.six.reg.l4.op.any Instr.isStore) s t := by
  cases hop : s.six.reg.l4.op with
  | none =>
    rw [hop] at h
    cases h
    exact ⟨(quiet_refl s).toExFrame, (robOnly_refl s).step⟩
  | some i =>
    rw [hop, sixExecute] at h
    split at h
    · cases h
    · obtain ⟨sh, hrun, hof⟩ := exec_shape i s
      rw [hrun] at h
      have hstep := Shape.robStep hp h hgo
      rw [hof.stores] at hstep
      exact ⟨(Shape.executed h).frame, hstep⟩

/-- The entry at the head has been completed: of the ROB after the executor's `t`, only that entry is another (R502). -/
structure HeadCompleted (s t u : State) : Prop where
  cfg : u.cfg = s.cfg
  length : u.six.rob.length = s.six.rob.length
  head : u.six.head = s.six.head
  count : u.six.count = s.six.count
  tail : u.six.tail = s.six.tail
  sb : u.six.sb = t.six.sb
  completed : u.robAt s.six.head = { t.robAt s.six.head with ready := true, exception := t.ex.stop }
  others : ∀ j, j ≠ s.six.head → u.robAt j = t.robAt j

theorem headCompleted_completeRob {s t : State} (hf : ExFrame s t) (hlen : t.six.rob.length = s.six.rob.length)
    (hindex : s.six.reg.l4.robIndex = s.six.head) (hin : s.six.head < s.six.rob.length) (stats : Stats) :
    HeadCompleted s t { completeRob t with stats := stats } := by
  have hsix := hf.six
  have hl4 : t.six.reg.l4.robIndex = s.six.head := by rw [hsix, hindex]
  have hrob : ∀ j, (completeRob t).robAt j = if j = s.six.head then
      { t.robAt s.six.head with ready := true, exception := t.ex.stop } else t.robAt j := fun j => by
    rw [completeRob, hl4, robAt_setRob]
    simp [hlen, hin]
  refine ⟨hf.cfg, List.length_set.trans hlen, ?_, ?_, ?_, rfl, (hrob _).trans (if_pos rfl),
    fun j hj => (hrob j).trans (if_neg hj)⟩
  · show t.six.head = _
    rw [hsix]
  · show t.six.count = _
    rw [hsix]
  · show t.six.tail = _
    rw [hsix]

/-- EX completes the entry of the instruction in L4, at the head (R502). -/
theorem LockstepAt.complete {s t u : State} (h : LockstepAt false s) (hvalid : s.six.reg.l4.valid = true)
    (hstep : RobStep (s.six.reg.l4.op.any Instr.isStore) s t) (hu : HeadCompleted s t u) : Awaiting true u := by
  obtain ⟨hindex, hentry, -, hstore⟩ := h.inEx hvalid
  rw [Bool.toNat_false, robPos_zero h.head] at hindex
  obtain ⟨-, hothers, hkept, hstored⟩ := hstep
  rw [hindex] at hothers hkept hstored hentry hstore
  have hpos := robPos_congr hu.cfg hu.head
  have hone : s.six.count = 1 := h.count.trans (by rw [hvalid]; rfl)
  constructor
  · rw [hu.length, hu.cfg]
    exact h.size
  · rw [hu.head, hu.cfg]
    exact h.head
  · exact hu.count.trans hone
  · rw [hu.tail, hu.count, hpos]
    exact h.tail
  · intro _
    rw [hu.head, hu.completed]
    exact ⟨hkept.trans hentry, rfl⟩
  · intro j hj
    rw [hu.count, hone] at hj
    have hne : j ≠ s.six.head := by
      have h0 := hj 0 (by decide)
      rwa [hpos, robPos_zero h.head] at h0
    rw [hu.others j hne, hothers j hne]
    refine h.others j fun k hk => ?_
    rw [← hpos]
    exact hj k (by rwa [hone] at hk)
  · have hempty : s.six.sb = [] := h.stores
    have hst := hstored hstore
    rw [hempty] at hst
    rw [hu.head, hu.completed, hu.sb]
    exact hst

theorem LockstepAt.sixEx {s u : State} (h : LockstepAt false s) (hp : s.cfg.pipe = .sixStage) (hu : sixEx s = .next u)
    (hgo : u.outcome = none) :
    Awaiting s.six.reg.l4.valid u ∧ u.six.head = s.six.head ∧ u.cfg = s.cfg := by
  unfold Machine.sixEx at hu
  split at hu
  · next hvalid =>
    obtain ⟨t, ht, ⟨hended, rfl⟩ | ⟨hrun, hk⟩⟩ := andThen_next hu
    · simp [hgo] at hended
    · obtain ⟨hf, hstep⟩ := sixExecute_robStep hp ht hrun
      obtain ⟨stats, hnext⟩ := sixAfterExecute_frame t
      cases hnext.symm.trans hk
      rw [hvalid]
      have hindex := (h.inEx hvalid).1.trans (robPos_zero h.head)
      have hdone := headCompleted_completeRob hf hstep.length hindex (by rw [h.size]; exact h.head) stats
      exact ⟨h.complete hvalid hstep hdone, hdone.head, hdone.cfg⟩
  · next hvalid =>
    cases hu
    rw [Bool.eq_false_iff.2 hvalid]
    exact ⟨h.awaiting (Bool.eq_false_iff.2 hvalid), rfl, rfl⟩

/-! ### The front end issues the next instruction -/

/-- The front end leaves the ROB as IS left it, and the clock edge moves what IS issued into L4 (R500). -/
theorem sixFrontEnd_frame {s t : State} (h : sixFrontEnd s = .next t) : ∃ pc latches d stats,
    latches.l4 = (sixIs s).1.six.next.l4 ∧ stats.cycles = s.stats.cycles ∧ t = { (sixIs s).1 with
      six := { (sixIs s).1.six with pcgenPc := pc, reg := latches, next := latches }
      dmi := d, stats := stats, ex := .none } := by
  rw [sixFrontEnd_eq] at h
  obtain ⟨stalls, l2, d, stats, -, hcycles, hk⟩ := sixIf_next h
  obtain ⟨pc, l1, hpcgen⟩ := pcGen_frame stalls
    ({ sixId (sixIs s).2 (sixIs s).1 with dmi := d, stats := stats }.withL2 l2)
  rw [hpcgen] at hk
  obtain ⟨_, _, _, _, _, his⟩ := sixIs_frame s
  refine ⟨pc, _, d, stats, ?_, hcycles.trans ?_, (Host.Outcome.next.inj hk).symm⟩
  · rfl
  · rw [show (sixId (sixIs s).2 (sixIs s).1).stats = (sixIs s).1.stats from rfl, his]

/-- What IS does to the ROB: nothing, with a bubble in L4, or the instruction of L3 allocated at the tail (R503). -/
theorem sixIs_cases (s : State) :
    ((sixIs s).1.six.rob = s.six.rob ∧ (sixIs s).1.six.tail = s.six.tail ∧ (sixIs s).1.six.count = s.six.count ∧
      (sixIs s).1.six.next.l4 = .bubble) ∨ (sixIs s).1 = issue s := by
  unfold sixIs
  split
  · exact .inl ⟨rfl, rfl, rfl, rfl⟩
  split
  · exact .inl ⟨rfl, rfl, rfl, rfl⟩
  split
  · exact .inl ⟨rfl, rfl, rfl, rfl⟩
  · exact .inr rfl

/-- What the front end does to the ROB: the fields it leaves, and the two cases of IS. -/
structure FrontEnd (s t : State) : Prop where
  cfg : t.cfg = s.cfg
  head : t.six.head = s.six.head
  sb : t.six.sb = s.six.sb
  outcome : t.outcome = s.outcome
  timer : t.timer = s.timer
  cycles : t.stats.cycles = s.stats.cycles
  ex : t.ex = ExecResult.none
  issued : (t.six.rob = s.six.rob ∧ t.six.tail = s.six.tail ∧ t.six.count = s.six.count ∧ t.six.reg.l4.valid = false) ∨
    (t.six.rob = s.six.rob.set s.six.tail (newRobEntry s.six.reg.l3.record) ∧
      t.six.tail = (s.six.tail + 1) % s.cfg.robN ∧ t.six.count = s.six.count + 1 ∧
      t.six.reg.l4 = issueLatch s.six.reg.l3.record s)

theorem frontEnd_of_next {s t : State} (h : sixFrontEnd s = .next t) : FrontEnd s t := by
  obtain ⟨pc, latches, d, stats, hl4, hcycles, rfl⟩ := sixFrontEnd_frame h
  obtain ⟨_, _, _, _, _, his⟩ := sixIs_frame s
  refine ⟨?_, ?_, ?_, ?_, ?_, hcycles, rfl, ?_⟩
  · show (sixIs s).1.cfg = _
    rw [his]
  · show (sixIs s).1.six.head = _
    rw [his]
  · show (sixIs s).1.six.sb = _
    rw [his]
  · show (sixIs s).1.outcome = _
    rw [his]
  · show (sixIs s).1.timer = _
    rw [his]
  · rcases sixIs_cases s with ⟨hrob, htail, hcount, hbubble⟩ | hissue
    · exact .inl ⟨hrob, htail, hcount, by rw [hl4, hbubble]; rfl⟩
    · rw [hissue] at hl4 ⊢
      exact .inr ⟨rfl, rfl, rfl, hl4⟩

theorem Awaiting.lockstepAt {waiting : Bool} {s t : State} (h : Awaiting waiting s) (hroom : 2 ≤ s.cfg.robN)
    (hf : FrontEnd s t) : LockstepAt waiting t := by
  have hpos := robPos_congr hf.cfg hf.head
  rcases hf.issued with ⟨hrob, htail, hcount, hl4⟩ | ⟨hrob, htail, hcount, hl4⟩
  · have hat := robAt_congr hrob
    constructor
    · rw [hrob, hf.cfg]
      exact h.size
    · rw [hf.head, hf.cfg]
      exact h.head
    · rw [hcount, hl4]
      exact h.count
    · rw [htail, hcount, hpos]
      exact h.tail
    · rw [hf.head, hat]
      exact h.ready
    · rw [hl4]
      exact nofun
    · intro j hj
      rw [hat]
      exact h.others j fun k hk => by rw [← hpos]; exact hj k (by rwa [hcount])
    · rw [hf.head, hat, hf.sb]
      exact h.stores
  · have htailpos : s.six.tail = s.robPos waiting.toNat := by rw [h.tail, h.count]
    have hlt : s.six.tail < s.six.rob.length := by
      rw [h.size, htailpos]
      exact robPos_lt hroom _
    have hat : ∀ j, t.robAt j = if j = s.six.tail then newRobEntry s.six.reg.l3.record else s.robAt j := fun j => by
      simp [robAt_set hrob, hlt]
    have hhead : waiting = true → t.robAt s.six.head = s.robAt s.six.head := fun hw => by
      rw [hat, if_neg]
      rw [htailpos, hw]
      exact (robPos_one_ne_head hroom h.head).symm
    have hindex : t.six.reg.l4.robIndex = s.six.tail := by rw [hl4]; rfl
    constructor
    · rw [hrob, List.length_set, hf.cfg]
      exact h.size
    · rw [hf.head, hf.cfg]
      exact h.head
    · rw [hcount, h.count, hl4]
      rfl
    · rw [htail, hcount, hpos, robPos_succ, h.tail]
    · intro hw
      rw [hf.head, hhead hw]
      exact h.ready hw
    · intro _
      rw [hindex, hat, if_pos rfl, hpos]
      refine ⟨htailpos, rfl, rfl, ?_⟩
      rw [hl4]
      rfl
    · intro j hj
      rw [hcount] at hj
      have hne : j ≠ s.six.tail := by
        rw [h.tail, ← hpos]
        exact hj _ (by omega)
      rw [hat, if_neg hne]
      exact h.others j fun k hk => by rw [← hpos]; exact hj k (by omega)
    · rw [hf.head, hf.sb]
      cases waiting with
      | false => exact h.stores
      | true =>
        rw [hhead rfl]
        exact h.stores

/-! ### The whole cycle -/

/-- The stage work of one cycle keeps the lockstep: afterwards the instruction that was in L4 waits, if one was. -/
theorem LockstepAt.sixStages {waiting : Bool} {s t : State} (h : LockstepAt waiting s) (hroom : 2 ≤ s.cfg.robN)
    (hp : s.cfg.pipe = .sixStage) (ht : sixStages s = .next t) (hgo : t.outcome = none) :
    LockstepAt s.six.reg.l4.valid t ∧ t.six.head = s.robPos waiting.toNat ∧ t.cfg = s.cfg ∧ t.ex = ExecResult.none := by
  obtain ⟨u, hu, ⟨hended, rfl⟩ | ⟨hrun, hk⟩⟩ := andThen_next ht
  · simp [hgo] at hended
  obtain ⟨c, hc, ⟨hended, rfl⟩ | ⟨hrun', hex⟩⟩ := andThen_next hu
  · simp [hrun] at hended
  obtain ⟨hcommit, hchead, hcreg, hccfg⟩ := h.commit hroom hc hrun'
  obtain ⟨hawait, huhead, hucfg⟩ := hcommit.sixEx (by rw [hccfg, hp]) hex hrun
  have hf := frontEnd_of_next hk
  rw [hcreg] at hawait
  exact ⟨hawait.lockstepAt (by rwa [hucfg, hccfg]) hf, hf.head.trans (huhead.trans hchead),
    hf.cfg.trans (hucfg.trans hccfg), hf.ex⟩

/-- The poll leaves the pipeline alone, or empties the latches of a drained one (R425, R426). -/
theorem poll_six {s : State} (hp : s.cfg.pipe = .sixStage) : (poll s).six = s.six ∨
    (s.six.count = 0 ∧ s.six.reg.l4.valid = false ∧
      ∃ pc, (poll s).six = { s.six with pcgenPc := pc, reg := .bubbles, next := .bubbles }) := by
  rw [poll, entryCheck_six (by rw [deassert_eq]; exact hp)]
  have hsix : s.deassert.six = s.six := by rw [deassert_eq]
  split
  · split
    · next hdrained =>
      obtain ⟨hcount, hl4⟩ := drained_iff.1 hdrained
      rw [hsix] at hcount hl4
      refine .inr ⟨hcount, hl4, clearBits10 s.deassert.csr.mtvec, ?_⟩
      rw [enterInterrupt, State.redirectPipeline, deassert_eq, hp]
    · exact .inl hsix
  · exact .inl hsix

theorem LockstepAt.poll {waiting : Bool} {s : State} (h : LockstepAt waiting s) (hp : s.cfg.pipe = .sixStage) :
    LockstepAt waiting (poll s) := by
  have hcfg := (sameButTrap_poll s).cfg
  rcases poll_six hp with hsix | ⟨hcount, hl4, pc, hsix⟩
  · exact h.congr hcfg hsix
  · have hw : waiting = false := by
      have hc := h.count
      rw [hcount, hl4] at hc
      cases waiting with
      | false => rfl
      | true => cases hc
    subst hw
    have hbubbles : LockstepAt false { s with six := { s.six with pcgenPc := pc, reg := .bubbles, next := .bubbles } } :=
      ⟨h.size, h.head, hcount, h.tail, h.ready, nofun, h.others, h.stores⟩
    exact hbubbles.congr hcfg hsix

/-- A cycle that does stage work. -/
theorem LockstepAt.cycle {waiting : Bool} {s t : State} (h : LockstepAt waiting s) (hroom : 2 ≤ s.cfg.robN)
    (hp : s.cfg.pipe = .sixStage) (hstall : (Machine.poll s).irq.stall = 0) (ht : cycle s = .next t)
    (hgo : t.outcome = none) : LockstepAt (Machine.poll s).six.reg.l4.valid t ∧
      t.six.head = (Machine.poll s).robPos waiting.toNat ∧ t.cfg = s.cfg ∧ t.ex = ExecResult.none := by
  have hcfg := (sameButTrap_poll s).cfg
  have hp' : (Machine.poll s).cfg.pipe = .sixStage := by rw [hcfg, hp]
  rw [cycle_of_no_latency hstall] at ht
  obtain ⟨u, hu, ⟨hended, rfl⟩ | ⟨hrun, hk⟩⟩ := andThen_next ht
  · simp [hgo] at hended
  cases hk
  rw [stages, hp'] at hu
  obtain ⟨hlock, hhead, hucfg, hex⟩ := (h.poll hp).sixStages (by rwa [hcfg]) hp' hu hrun
  exact ⟨hlock.congr rfl rfl, hhead, hucfg.trans hcfg, hex⟩

/-- The lockstep after the boundary of a step that goes on. -/
theorem Lockstep.boundary {s b t : State} (h : Lockstep s) (hb : boundary s = .next b) (ht : step s = .next t)
    (hgo : t.outcome = none) : cycle b = .next t ∧ AgentsFrame s b ∧ b.outcome = none := by
  rw [step, h.running, hb] at ht
  have hframe := agentsFrame_boundary hb
  obtain ⟨u, hu, ⟨hended, rfl⟩ | ⟨hrun, hk⟩⟩ := andThen_next ht
  · simp [hgo] at hended
  · cases hu
    exact ⟨hk, hframe, hrun⟩

/-- A step that goes on has a boundary that does. -/
theorem boundary_of_step {s t : State} (hs : s.outcome = none) (ht : step s = .next t) : ∃ b, boundary s = .next b := by
  rw [step, hs] at ht
  obtain ⟨b, hb, -⟩ := andThen_next ht
  exact ⟨b, hb⟩

/-- Settles O12. -/
theorem sixStageStepsKeepTheLockstep : Obligations.SixStageStepsKeepTheLockstep := by
  intro s t h ht hgo
  obtain ⟨b, hb⟩ := boundary_of_step h.running ht
  obtain ⟨hcycle, hframe, hrun⟩ := h.boundary hb ht hgo
  obtain ⟨waiting, hat⟩ := h.at'
  have hp : b.cfg.pipe = .sixStage := by rw [hframe.cfg, h.six]
  have hroom : 2 ≤ b.cfg.robN := by rw [hframe.cfg]; exact h.room
  have hat' := hat.congr hframe.cfg hframe.six
  have hpoll := sameButTrap_poll b
  by_cases hstall : (poll b).irq.stall = 0
  · obtain ⟨hlock, -, hcfg, hex⟩ := hat'.cycle hroom hp hstall hcycle hgo
    exact ⟨by rw [hcfg, hp], by rwa [hcfg], hgo, hex, _, hlock⟩
  · rw [cycle, cycleWork, if_pos (by omega), andThen_of_running (by exact hpoll.rest.2.1.trans hrun)] at hcycle
    cases hcycle
    have hex : (poll b).ex = ExecResult.none := hpoll.rest.1.trans (hframe.ex.trans h.idle)
    have hcfg := hpoll.cfg
    exact ⟨by rw [← hp, ← hcfg]; rfl, by rw [← hcfg] at hroom; exact hroom, hgo, hex, _, (hat'.poll hp).congr rfl rfl⟩

/-- Settles O13. -/
theorem anExecutedInstructionWaitsAtTheRobHead : Obligations.AnExecutedInstructionWaitsAtTheRobHead := by
  intro s t b h hb hstall hl4 ht hgo
  obtain ⟨hcycle, hframe, -⟩ := h.boundary hb ht hgo
  obtain ⟨waiting, hat⟩ := h.at'
  have hp : b.cfg.pipe = .sixStage := by rw [hframe.cfg, h.six]
  have hroom : 2 ≤ b.cfg.robN := by rw [hframe.cfg]; exact h.room
  obtain ⟨hlock, hhead, -, -⟩ := (hat.congr hframe.cfg hframe.six).cycle hroom hp hstall hcycle hgo
  have hsix : (poll b).six = s.six := by
    rcases poll_six hp with hsame | ⟨-, hbubble, -⟩
    · rw [hsame, hframe.six]
    · rw [hframe.six, hl4] at hbubble
      cases hbubble
  rw [hsix, hl4] at hlock
  refine ⟨hlock, hhead.trans ?_⟩
  rw [(hat.inEx hl4).1, State.robPos, hsix, (sameButTrap_poll b).cfg, hframe.cfg, State.robPos]

end Sys2Proof.Machine
end

section
/-! PROOFS. The timer's ticks over a boundary and over a step (R450, R454). -/

namespace Sys2Proof.Machine

/-! ### The agents move the timer by ticks only -/

/-- The timer has performed some ticks, none beyond `bound`, and nothing else has happened to it (R450). -/
structure Ticked (bound : Nat) (s t : State) : Prop where
  grows : s.timer.ticks ≤ t.timer.ticks
  mtime : t.timer.mtime = s.timer.mtime + BitVec.ofNat 64 (t.timer.ticks - s.timer.ticks)
  mtimecmp : t.timer.mtimecmp = s.timer.mtimecmp
  bounded : t.timer.ticks ≤ max s.timer.ticks bound

theorem ticked_of_timer {bound : Nat} {s t : State} (h : t.timer = s.timer) : Ticked bound s t := by
  refine ⟨by rw [h], ?_, by rw [h], by rw [h]; exact Nat.le_max_left ..⟩
  rw [h, Nat.sub_self]
  exact (BitVec.add_zero _).symm

theorem Ticked.trans {bound : Nat} {s t u : State} (h : Ticked bound s t) (h' : Ticked bound t u) : Ticked bound s u := by
  have h1 := h.grows
  have h2 := h'.grows
  have h3 := h.bounded
  have h4 := h'.bounded
  refine ⟨by omega, ?_, h'.mtimecmp.trans h.mtimecmp, by omega⟩
  rw [h'.mtime, h.mtime, BitVec.add_assoc, ← BitVec.ofNat_add]
  congr 2
  omega

theorem ticked_tickTo {bound due : Nat} (h : due ≤ bound) (s : State) : Ticked bound s (s.tickTo due) := by
  unfold State.tickTo
  split
  · next hdue => exact ⟨Nat.le_of_lt hdue, rfl, rfl, le_max_of_le_right h⟩
  · exact ticked_of_timer rfl

theorem ticked_tickOnce (s : State) : Ticked (ticksUpTo s.cfg s.nextTime) s s.tickOnce := by
  unfold State.tickOnce
  split
  · next hdue => exact ticked_tickTo hdue s
  · exact ticked_of_timer rfl

theorem le_ticks_tickTo (due : Nat) (s : State) : due ≤ (s.tickTo due).timer.ticks := by
  unfold State.tickTo
  split
  · exact Nat.le_refl _
  · next hdue => exact Nat.le_of_not_lt hdue

theorem ticksBefore_le (cfg : Config) (t : Nat) : ticksBefore cfg t ≤ ticksUpTo cfg t :=
  Nat.div_le_div_right (Nat.sub_le t 1)

theorem nextTime_agents {s t : State} (h : AgentsFrame s t) : t.nextTime = s.nextTime := by
  rw [State.nextTime, h.cfg, h.stats, State.nextTime]

/-! ### No DMA transaction reaches the timer (R134) -/

theorem clintPort_zero (off : Nat) : clintPort off 0 = none := by
  unfold clintPort
  split <;> trivial

theorem legacyTimerPort_zero (off : Nat) : legacyTimerPort off 0 = none := by
  unfold legacyTimerPort
  split <;> trivial

/-- An access of no bytes leaves the timer alone. -/
theorem timer_deviceWrite_zero {tg : Target} {off : Nat} {v w : Word} {s t : State}
    (h : deviceWrite tg off 0 v s = .ok w t) : t.timer = s.timer := by
  cases tg
  case clint =>
    rw [deviceWrite, clintPort_zero] at h
    cases h
  case legacyTimer =>
    rw [deviceWrite, legacyTimerPort_zero] at h
    cases h
  case plic | uart | dma | trace | syscallHook | legacyTermination =>
    simp only [deviceWrite, plicWrite, uartWrite, dmaWrite, traceWrite, hookWrite, legacyTermination] at h
    (repeat' split at h) <;> simp only [DevReply.ok.injEq, reduceCtorEq] at h <;> obtain ⟨-, rfl⟩ := h <;> rfl

theorem timer_mainMemoryAccess {tx : Tx} {s t : State} {bs : List Byte} (h : mainMemoryAccess tx s = .ok bs t) :
    t.timer = s.timer := by
  unfold mainMemoryAccess at h
  split at h
  · cases h
  split at h
  · cases h
  split at h
  · cases h
  split at h <;> cases h <;> rfl

theorem timer_transport_zero {s t : State} {a : Word} {bytes bs : List Byte}
    (h : transport ⟨.dma, .write, a, 0, bytes⟩ s = .ok bs t) : t.timer = s.timer := by
  unfold transport at h
  split at h
  · unfold tohostWrite at h
    split at h <;> cases h
    rfl
  split at h
  · split at h
    · cases h
      rfl
    · simp only [deviceAccess] at h
      split at h
      · next hd =>
        cases h
        exact timer_deviceWrite_zero hd
      · cases h
      · cases h
  · exact timer_mainMemoryAccess h

theorem timer_transport_dma {s t : State} {a : Word} {n : Nat} {bytes bs : List Byte}
    (hmeet : meetsDevice s.cfg a n = false) (h : transport ⟨.dma, .write, a, n, bytes⟩ s = .ok bs t) :
    t.timer = s.timer := by
  by_cases hn : n = 0
  · subst hn
    exact timer_transport_zero h
  · rw [transport_dma hn hmeet] at h
    exact timer_mainMemoryAccess h

theorem timer_dmaStep {s t : State} (h : dmaStep s = .next t) : t.timer = s.timer := by
  rcases dmaStep_cases h with rfl | rfl | ⟨o, rfl⟩ | ⟨-, bytes, rfl⟩ | ⟨a, n, bytes, bs, u, hmeet, hu, rfl⟩
  · rfl
  · rfl
  · rfl
  · rfl
  · show u.timer = s.timer
    exact timer_transport_dma hmeet hu

/-! ### The boundary (R454, R481) -/

theorem ticked_agentEvent {e : AgentEvent} {s t : State} (h : agentEvent e s = .next t) :
    Ticked (ticksUpTo s.cfg s.nextTime) s t := by
  cases e with
  | tick =>
    cases h
    exact ticked_tickOnce s
  | dma => exact ticked_of_timer (timer_dmaStep h)
  | hostStop =>
    cases h
    exact ticked_of_timer rfl

theorem ticked_agentEvents {es : List AgentEvent} {s t : State} (h : agentEvents es s = .next t) :
    Ticked (ticksUpTo s.cfg s.nextTime) s t := by
  induction es generalizing s with
  | nil =>
    cases h
    exact ticked_of_timer rfl
  | cons e es ih =>
    obtain ⟨u, hu, ⟨-, rfl⟩ | ⟨-, hk⟩⟩ := andThen_next h
    · exact ticked_agentEvent hu
    · have hframe := agentsFrame_agentEvent hu
      have hrest := ih hk
      rw [hframe.cfg, nextTime_agents hframe] at hrest
      exact (ticked_agentEvent hu).trans hrest

theorem timer_deliverInvalidation (s : State) : s.deliverInvalidation.timer = s.timer := by
  unfold State.deliverInvalidation
  split <;> rfl

theorem ticked_boundary {s b : State} (h : boundary s = .next b) : Ticked (ticksUpTo s.cfg s.nextTime) s b := by
  have hstart : Ticked (ticksUpTo s.cfg s.nextTime) s { s with schedule := s.schedule.tail } := ticked_of_timer rfl
  obtain ⟨u, hu, ⟨-, rfl⟩ | ⟨-, hk⟩⟩ := andThen_next h
  · exact hstart.trans (ticked_agentEvents hu)
  · cases hk
    have hframe := agentsFrame_agentEvents hu
    have hlast := ticked_tickTo (ticksBefore_le u.cfg u.nextTime) u
    rw [hframe.cfg, nextTime_agents hframe] at hlast
    refine ((hstart.trans (ticked_agentEvents hu)).trans ?_).trans (ticked_of_timer (timer_deliverInvalidation _))
    rw [hframe.cfg, nextTime_agents hframe]
    exact hlast

/-- A boundary that lets the run go on performs every tick strictly before the cycle's time (R454). -/
theorem ticksBefore_le_boundary {s b : State} (h : boundary s = .next b) (hrun : b.outcome = none) :
    ticksBefore s.cfg s.nextTime ≤ b.timer.ticks := by
  obtain ⟨u, hu, ⟨hended, rfl⟩ | ⟨-, hk⟩⟩ := andThen_next h
  · simp [hrun] at hended
  · cases hk
    have hframe : AgentsFrame { s with schedule := s.schedule.tail } u := agentsFrame_agentEvents hu
    rw [timer_deliverInvalidation]
    have hle := le_ticks_tickTo (ticksBefore u.cfg u.nextTime) u
    rw [nextTime_agents hframe] at hle ⊢
    rw [hframe.cfg] at hle ⊢
    exact hle

/-! ### A cycle performs no tick -/

/-- The parameters, the performed ticks and the count of cycles are as before. -/
structure TimeKept (s t : State) : Prop where
  cfg : t.cfg = s.cfg
  ticks : t.timer.ticks = s.timer.ticks
  cycles : t.stats.cycles = s.stats.cycles

theorem timeKept_refl (s : State) : TimeKept s s := ⟨rfl, rfl, rfl⟩

theorem TimeKept.trans {s t u : State} (h : TimeKept s t) (h' : TimeKept t u) : TimeKept s u :=
  ⟨h'.cfg.trans h.cfg, h'.ticks.trans h.ticks, h'.cycles.trans h.cycles⟩

theorem ExFrame.timeKept {s t : State} (h : ExFrame s t) : TimeKept s t :=
  ⟨h.cfg, h.kept.ticks, congrArg Stats.cycles h.stats⟩

theorem timeKept_exec {i : Instr} {s t : State} (h : exec i s = .next t) : TimeKept s t := by
  obtain ⟨sh, hrun, -⟩ := exec_shape i s
  exact (Shape.executed (hrun ▸ h)).frame.timeKept

theorem timeKept_poll (s : State) : TimeKept s (poll s) := by
  have hpoll := sameButTrap_poll s
  refine ⟨hpoll.cfg, congrArg Timer.ticks hpoll.devices.1, ?_⟩
  have hdeassert : s.deassert.stats = s.stats := by rw [deassert_eq]
  rw [poll, ← hdeassert]
  unfold State.entryCheck
  split
  · split <;> rfl
  · split
    · split <;> rfl
    · rfl

theorem timeKept_twoAfterExecute {s t : State} (h : twoAfterExecute s = .next t) : TimeKept s t := by
  unfold twoAfterExecute at h
  split at h
  · cases h
    exact ⟨rfl, rfl, rfl⟩
  split at h <;> cases h <;> exact ⟨rfl, rfl, rfl⟩

theorem timeKept_twoEx {s t : State} (h : twoEx s = .next t) : TimeKept s t := by
  unfold twoEx at h
  split at h
  · split at h
    · next u hu =>
      refine TimeKept.trans ?_ (timeKept_twoAfterExecute h)
      unfold executeWord at hu
      split at hu
      · exact timeKept_exec hu
      · cases hu
        exact timeKept_refl s
    · cases h
    · cases h
  · cases h
    exact timeKept_refl s

theorem timeKept_twoIf {before : Memory} {s t : State} (h : twoIf before s = .next t) : TimeKept s t := by
  unfold twoIf at h
  split at h
  · cases h
    exact ⟨rfl, rfl, rfl⟩
  split at h
  · cases h
    exact ⟨rfl, rfl, rfl⟩
  split at h
  · next hfetch =>
    obtain ⟨d, rfl, -⟩ := fetch_ok hfetch
    cases h
    exact ⟨rfl, rfl, rfl⟩
  · next hfetch =>
    rw [h] at hfetch
    exact absurd hfetch fetch_stopped

theorem timeKept_twoStages {s t : State} (h : twoStages s = .next t) : TimeKept s t := by
  have hadvance : TimeKept s (twoAdvance s) := ⟨rfl, rfl, rfl⟩
  obtain ⟨u, hu, ⟨-, rfl⟩ | ⟨-, hk⟩⟩ := andThen_next h
  · exact hadvance.trans (timeKept_twoEx hu)
  · exact (hadvance.trans (timeKept_twoEx hu)).trans (timeKept_twoIf hk)

theorem timeKept_retireHead (s : State) : TimeKept s (retireHead s) := ⟨rfl, rfl, rfl⟩

theorem timeKept_commit {s t : State} (h : commit s = .next t) : TimeKept s t := by
  rcases commit_cases h with rfl | ⟨o, rfl⟩ | ⟨u, hu, rfl⟩ | ⟨u, hq, -, rfl⟩
  · exact timeKept_refl _
  · exact ⟨rfl, rfl, rfl⟩
  · have hq : Quiet s u := by
      rcases hu with rfl | ⟨v, hv⟩
      · exact quiet_refl _
      · exact commitStore_ok_quiet hv
    exact (hq.trans (quiet_setX ..)).timeKept.trans (timeKept_retireHead _)
  · exact hq.timeKept.trans (timeKept_retireHead u)

theorem timeKept_sixAfterExecute {s t : State} (h : sixAfterExecute s = .next t) : TimeKept s t := by
  unfold sixAfterExecute at h
  cases h
  split <;> exact ⟨rfl, rfl, rfl⟩

theorem timeKept_sixExecute {op : Option Instr} {s t : State} (h : sixExecute op s = .next t) : TimeKept s t := by
  unfold sixExecute at h
  split at h
  · cases h
    exact timeKept_refl s
  split at h
  · cases h
  · exact timeKept_exec h

theorem timeKept_sixEx {s t : State} (h : sixEx s = .next t) : TimeKept s t := by
  unfold sixEx at h
  split at h
  · obtain ⟨u, hu, ⟨-, rfl⟩ | ⟨-, hk⟩⟩ := andThen_next h
    · exact timeKept_sixExecute hu
    · exact (timeKept_sixExecute hu).trans (timeKept_sixAfterExecute hk)
  · cases h
    exact timeKept_refl s

theorem timeKept_sixFrontEnd {s t : State} (h : sixFrontEnd s = .next t) : TimeKept s t := by
  have hf := frontEnd_of_next h
  exact ⟨hf.cfg, congrArg Timer.ticks hf.timer, hf.cycles⟩

theorem timeKept_sixStages {s t : State} (h : sixStages s = .next t) : TimeKept s t := by
  have hback : ∀ u, (commit s).andThen sixEx = .next u → TimeKept s u := fun u hu => by
    obtain ⟨c, hc, ⟨-, rfl⟩ | ⟨-, hk⟩⟩ := andThen_next hu
    · exact timeKept_commit hc
    · exact (timeKept_commit hc).trans (timeKept_sixEx hk)
  obtain ⟨u, hu, ⟨-, rfl⟩ | ⟨-, hk⟩⟩ := andThen_next h
  · exact hback _ hu
  · exact (hback u hu).trans (timeKept_sixFrontEnd hk)

theorem timeKept_cycleWork {s t : State} (h : cycleWork s = .next t) : TimeKept s t := by
  unfold cycleWork at h
  split at h
  · cases h
    exact ⟨rfl, rfl, rfl⟩
  unfold stages at h
  split at h
  · exact timeKept_twoStages h
  · exact timeKept_sixStages h

/-- A cycle that ends no run is counted, and performs no tick. -/
theorem cycle_time {s t : State} (h : cycle s = .next t) (hgo : t.outcome = none) :
    t.cfg = s.cfg ∧ t.timer.ticks = s.timer.ticks ∧ t.stats.cycles = s.stats.cycles + 1 := by
  obtain ⟨u, hu, ⟨hended, rfl⟩ | ⟨-, hk⟩⟩ := andThen_next h
  · simp [hgo] at hended
  · cases hk
    have hkept := (timeKept_poll s).trans (timeKept_cycleWork hu)
    exact ⟨hkept.cfg, hkept.ticks, congrArg (· + 1) hkept.cycles⟩

/-- Settles O58. -/
theorem ticksStayOnTime : Obligations.TicksStayOnTime := by
  refine ⟨fun s t _ hbefore hupto ht hgo => ?_, fun s b hb => ?_⟩
  · have hs : s.outcome = none := by
      cases hs : s.outcome with
      | none => rfl
      | some o =>
        rw [step, hs] at ht
        cases ht
    rw [step, hs] at ht
    obtain ⟨b, hb, ⟨hended, rfl⟩ | ⟨hrun, hk⟩⟩ := andThen_next ht
    · simp [hgo] at hended
    have hframe := agentsFrame_boundary hb
    have hticked := ticked_boundary hb
    have hlow := ticksBefore_le_boundary hb hrun
    obtain ⟨hcfg, hticks, hcycles⟩ := cycle_time hk hgo
    rw [hcfg, hticks, hcycles, hframe.cfg, hframe.stats]
    have htime : (s.stats.cycles + 1) * s.cfg.clkPeriod = s.nextTime := rfl
    rw [htime]
    have hmono : ticksUpTo s.cfg (s.stats.cycles * s.cfg.clkPeriod) ≤ ticksUpTo s.cfg s.nextTime :=
      Nat.div_le_div_right (Nat.mul_le_mul_right _ (Nat.le_succ _))
    have hbound := hticked.bounded
    exact ⟨hlow, by omega, rfl⟩
  · have h := ticked_boundary hb
    exact ⟨h.grows, h.mtime, h.mtimecmp⟩

end Sys2Proof.Machine
end
